-- ==== Sys2Proof/Word.lean ====
section
/-! DEFINITION. The words of the block: every value is an unsigned bit vector (00_scope R9), and the three logical
output pins (20_memory R50, R51). -/

namespace Sys2Proof

/-- An 8-bit value: a character code (CHAR_WIDTH) or a segment code (CODE_WIDTH), 00_scope R8. -/
abbrev Byte := BitVec 8

/-- A 48-bit value: a display frame (FRAME_WIDTH), a six-character text, or the storage of the chain (CHAIN_BITS),
00_scope R8. -/
abbrev Frame := BitVec 48

/-- The level of a pin: `true` is 1 is high (00_scope R12 (a)). -/
abbrev Level := Bool

/-- The logical output pins, the only named locations of the block (20_memory R50). -/
inductive Pin where
  | data
  | sclk
  | lclk
deriving DecidableEq, Repr, Inhabited

end Sys2Proof
end

