-- ==== Sys2Proof/Ports.lean ====
section
/-! DEFINITION. The input ports of the block (30_encoding R70). -/

namespace Sys2Proof

/-- The command opcode and the operand ports, as they stand in one step (30_encoding R70). The command word is `op`
alone; the operands are no part of it (R72). -/
structure CommandPorts where
  op : BitVec 3 := 0
  charIn : Byte := 0
  textIn : Frame := 0
  lenIn : BitVec 4 := 0
  frameIn : Frame := 0
  widthIn : BitVec 6 := 0
deriving DecidableEq, Repr, Inhabited

/-- One sample of the input ports (30_encoding R70). -/
structure Inputs where
  rst : Bool := false
  abortReq : Bool := false
  cmdValid : Bool := false
  /-- `cmd_op` and the operand ports. -/
  cmd : CommandPorts := { }
  /-- The digital output interface accepts the pin write of this step (30_encoding R78). -/
  pinOk : Bool := true
deriving DecidableEq, Repr, Inhabited

end Sys2Proof
end

