-- ==== Sys2Proof/Config.lean ====
section
/-! DEFINITION. What a build of the block fixes (00_scope R8) and the values the spec leaves open. A constant declared
`opaque` has no body that a proof could use: a claim about it holds for every value. -/

namespace Sys2Proof

/-- SUPPORTED, the 14 characters that have a segment code of their own (41_encoder R100). -/
inductive Supported where
  | d0 | d1 | d2 | d3 | d4 | d5 | d6 | d7 | d8 | d9
  | letterH
  | letterF
  | letterP
  | space
deriving DecidableEq, Repr, Inhabited

/-- The codes of the reference instance REF (41_encoder R105), a decision of the spec and not the original table. -/
def Config.refCode : Supported → Byte
  | .d0 => 0x3F
  | .d1 => 0x06
  | .d2 => 0x5B
  | .d3 => 0x4F
  | .d4 => 0x66
  | .d5 => 0x6D
  | .d6 => 0x7D
  | .d7 => 0x07
  | .d8 => 0x7F
  | .d9 => 0x6F
  | .letterH => 0x76
  | .letterF => 0x71
  | .letterP => 0x73
  | .space => 0x00

/-- SEG_TABLE and SENTINEL together, with the two constraints the spec puts on them: SEG_TABLE is injective on
SUPPORTED (41_encoder R102) and SENTINEL is no code of it, that of space included (R103). The defaults are REF (R105),
so the proofs of the defaults are R106. -/
structure SegTable where
  /-- SEG_TABLE (R102). -/
  code : Supported → Byte := Config.refCode
  /-- SENTINEL (R103). -/
  sentinel : Byte := 0x80
  /-- R102. -/
  code_injective : ∀ a b, code a = code b → a = b := by intro a b; cases a <;> cases b <;> decide
  /-- R103. -/
  code_ne_sentinel : ∀ a, code a ≠ sentinel := by intro a; cases a <;> decide
deriving Inhabited

/-- The reference instance REF (41_encoder R105). Only test vectors use its numbers. -/
def Config.ref : SegTable := { }

/-- The SEG_TABLE and SENTINEL of this build, OPEN parameters (00_scope R8, 10_state R38): any table that meets R102 and
R103. Log 6. -/
opaque Config.segTable : SegTable

/-- PIN_MAP, an OPEN parameter: the physical output each logical pin drives (20_memory R51). No rule reads it. Log 16. -/
opaque Config.pinMap : Pin → Nat

/-- CH_SR at power-up, which no source gives (60_exceptions R231, I7). Log 4. -/
opaque Config.powerUpShift : Frame

/-- CH_OUT at power-up, which no source gives (60_exceptions R231, I7). Log 4. -/
opaque Config.powerUpLatch : Frame

/-- CH_SR after a rejected pin write: any value, one draw for each index (60_exceptions R213 (b), I8). Log 5. -/
opaque Config.rejectedShift : Nat → Frame

/-- CH_OUT after a rejected pin write: any value, one draw for each index (60_exceptions R213 (b), I8). Log 5. -/
opaque Config.rejectedLatch : Nat → Frame

/-- Every input port beyond the samples that are fixed: a free draw of the environment for each index (00_scope R6 (a),
30_encoding R78, 44_system R186). Log 2. -/
opaque Config.freeInputs : Nat → Inputs

/-- N_DIGITS (00_scope R8). -/
def Config.nDigits : Nat := 6

/-- CODE_WIDTH (00_scope R8). -/
def Config.codeWidth : Nat := 8

/-- SEND_WIDTH, the only bitWidth a SEND accepts: 8 × N_DIGITS, a parameter of the build (00_scope R8, 90_conflicts C6). -/
def Config.sendWidth : Nat := Config.codeWidth * Config.nDigits

end Sys2Proof
end

