-- ==== Sys2Proof/Syntax.lean ====
section
/-! DEFINITION. The commands of the block, as the machine runs them and as a host program writes them. -/

namespace Sys2Proof

/-- A command with its operands, each typed by the width of its port (00_scope R14): one constructor for each row of
spec/opcode_table.json. A text is the 48 bits of `text_in`, character `i` in bits `[47-8i : 40-8i]` (30_encoding R74). -/
inductive Instr where
  /-- ENCODE (41_encoder R107): `char_in`. -/
  | encode (char : Byte)
  /-- SERIALIZE (42_serializer R122): `text_in` and `len_in`. -/
  | serialize (text : Frame) (len : BitVec 4)
  /-- SEND (43_shift_bus R141): `frame_in` and `width_in`. -/
  | send (frame : Frame) (width : BitVec 6)
  /-- SHUTDOWN (44_system R180): no operand. -/
  | shutdown
deriving DecidableEq, Repr, Inhabited

/-- The frame operand of a SEND in a host program: a number, or the word FRAME, for which the host copies `frame_out` to
`frame_in` (30_encoding R82, 44_system R184). -/
inductive FrameOperand where
  | literal (value : Nat)
  | frameOut
deriving DecidableEq, Repr, Inhabited

/-- A line of a host program, whose operands have no bound of their own (30_encoding R79, R82). A character is its code. -/
inductive HostCommand where
  | encode (char : Nat)
  | serialize (text : List Nat)
  | send (frame : FrameOperand) (width : Int)
  | shutdown
  /-- The pseudo-instruction SHOW (30_encoding R84, 44_system R183). -/
  | showText (text : List Nat)
deriving DecidableEq, Repr, Inhabited

end Sys2Proof
end

