-- ==== Sys2Proof/WellFormed.lean ====
section
/-! DEFINITION. Which commands the ports can express (30_encoding R79, I18): what a port cannot carry is refused at the
boundary, as not spelled. -/

namespace Sys2Proof

/-- A character code that `char_in` or a text lane can carry (30_encoding R79). -/
def charSpelled (c : Nat) : Bool := c < 256

/-- A text whose length `len_in` can carry, of characters a lane can carry (30_encoding R79). A length other than 6 is
spelled; it raises BAD_LENGTH. -/
def textSpelled (t : List Nat) : Bool := t.length ≤ 15 && t.all charSpelled

/-- A frame that `frame_in` can carry (30_encoding R79). -/
def FrameOperand.spelled : FrameOperand → Bool
  | .literal v => v < 2 ^ 48
  | .frameOut => true

/-- A bitWidth that `width_in` can carry (30_encoding R79). -/
def widthSpelled (w : Int) : Bool := 0 ≤ w && w < 64

/-- The checks of 30_encoding R79 on a line of a host program. -/
def HostCommand.wellFormed : HostCommand → Bool
  | .encode c => charSpelled c
  | .serialize t => textSpelled t
  | .send f w => f.spelled && widthSpelled w
  | .shutdown => true
  | .showText t => textSpelled t

/-- The same checks on a command of the machine, on its operands read as numbers. The operands are typed by the width of
their ports, so every command passes (00_scope R14; Laws/Syntax.lean proves it). -/
def Instr.wellFormed : Instr → Bool
  | .encode c => charSpelled c.toNat
  | .serialize text len => text.toNat < 2 ^ 48 && len.toNat ≤ 15
  | .send f w => (FrameOperand.literal f.toNat).spelled && widthSpelled w.toNat
  | .shutdown => true

end Sys2Proof
end

