-- ==== Sys2Proof/Decode.lean ====
section
/-! DEFINITION. The decoder and the encoder of the 3-bit command word (30_encoding R72, R77, R80). -/

namespace Sys2Proof

/-- The four opcodes that are not reserved (30_encoding R77). -/
inductive Opcode where
  | encode
  | serialize
  | send
  | shutdown
deriving DecidableEq, Repr

/-- Why the decoder rejects a command word. -/
inductive DecodeError where
  /-- The opcode is one of 000, 101, 110, 111 (30_encoding R80). -/
  | reservedOpcode (op : BitVec 3)
deriving DecidableEq, Repr

/-- The opcode map (30_encoding R77), total over the 3-bit field. -/
def Opcode.ofBits (op : BitVec 3) : Option Opcode :=
  match op.toNat with
  | 1 => some .encode
  | 2 => some .serialize
  | 3 => some .send
  | 4 => some .shutdown
  | _ => none

/-- The code of each opcode (30_encoding R77). -/
def Opcode.toBits : Opcode → BitVec 3
  | .encode => 0b001
  | .serialize => 0b010
  | .send => 0b011
  | .shutdown => 0b100

/-- The command on the ports: the opcode selects it, and it takes the operand ports it uses as they are
(30_encoding R73 to R75, R77). A reserved opcode is rejected by name (R80). -/
def decode (p : CommandPorts) : Except DecodeError Instr :=
  match Opcode.ofBits p.op with
  | some .encode => .ok (.encode p.charIn)
  | some .serialize => .ok (.serialize p.textIn p.lenIn)
  | some .send => .ok (.send p.frameIn p.widthIn)
  | some .shutdown => .ok .shutdown
  | none => .error (.reservedOpcode p.op)

/-- The ports that present a command (30_encoding R73 to R75, R77). The operand ports the command does not use are 0
(DESIGN CHOICE, log 10: the block ignores them, R76). -/
def encode : Instr → CommandPorts
  | .encode c => { op := Opcode.toBits .encode, charIn := c }
  | .serialize text len => { op := Opcode.toBits .serialize, textIn := text, lenIn := len }
  | .send f w => { op := Opcode.toBits .send, frameIn := f, widthIn := w }
  | .shutdown => { op := Opcode.toBits .shutdown }

/-- The ports that present the command word held in the low `nbits` bits of `w`, every operand port 0. A word has three
bits (30_encoding R72); the bits of its container above them are not on any port (the mask 0x7 of the opcode table).
DESIGN CHOICE, log 11. -/
def commandWord (nbits w : Nat) : CommandPorts :=
  { op := BitVec.ofNat 3 (w % 2 ^ nbits) }

/-- The instruction the decoder reads from the command word in `w`, `none` where it rejects. -/
def decodeTableWord (nbits w : Nat) : Option Instr :=
  (decode (commandWord nbits w)).toOption

end Sys2Proof
end

