-- ==== Sys2Proof/Machine/State.lean ====
section
/-! DEFINITION. The state of the machine: the registers of the block (10_state R20), the attached chain (R35), the pin
event history (20_memory R56), and the samples of the input ports that the coming steps read. Plain data. -/

namespace Sys2Proof.Machine

open Sys2Proof

/-- SQ_PHASE, which names the pin write of the next sequencer step. The encodings 6 and 7 are never written, so the
register is typed by its six names (10_state R25, I17). Log 8. -/
inductive Phase where
  | idle
  | latchLow
  | clkLow
  | data
  | clkHigh
  | latchHigh
deriving DecidableEq, Repr, Inhabited

/-- HALT_CAUSE. The value 7 is never written, so the field is typed by its seven names (60_exceptions R201, 10_state R31,
I16). Log 8. -/
inductive HaltCause where
  | none
  | illegalCommand
  | badLength
  | badWidth
  | pinWriteFailed
  | abort
  | shutdown
deriving DecidableEq, Repr, Inhabited

/-- One entry of the pin event history (20_memory R56): a write `(p, v)`, or a write the digital output interface
rejected, `(p, v, rejected)`. -/
inductive PinEvent where
  | written (pin : Pin) (level : Level)
  | rejected (pin : Pin) (level : Level)
deriving DecidableEq, Repr

/-- The machine. -/
structure State where
  /-- CODE (10_state R21). -/
  code : Byte
  /-- FRAME (10_state R22). -/
  frame : Frame
  /-- SQ_FRAME (10_state R23). -/
  sqFrame : Frame
  /-- SQ_IDX (10_state R24). -/
  sqIdx : BitVec 6
  /-- SQ_PHASE (10_state R25). -/
  sqPhase : Phase
  /-- LV_DATA (10_state R26). -/
  lvData : Level
  /-- LV_SCLK (10_state R26). -/
  lvSclk : Level
  /-- LV_LCLK (10_state R26). -/
  lvLclk : Level
  /-- HALTED (10_state R30). -/
  halted : Bool
  /-- HALT_CAUSE (10_state R31). -/
  haltCause : HaltCause
  /-- CH_SR, the shift storage of the chain; bit 0 is the stage that receives DATA (60_exceptions R231, R232). -/
  chSr : Frame
  /-- CH_OUT, the output latches of the chain (60_exceptions R231, R232). -/
  chOut : Frame
  /-- The pin event history, oldest first (20_memory R56). -/
  events : List PinEvent
  /-- The model's own: the samples of the input ports that the coming steps read, the next one first (log 1). -/
  inputs : List Inputs
  /-- The model's own: how many free draws have been made (log 5). -/
  draws : Nat
deriving DecidableEq, Repr

/-- Why the machine stops with a fault. Raised by the sequencer alone; no command raises one, and no state that a run
reaches does. -/
inductive Fault where
  /-- A sequencer in phase DATA whose SQ_IDX is 48..63 and so names no bit of SQ_FRAME. The spec says these values never
  occur (10_state R24). Raised by `sequencerStep`. Safe: the model stops. Log 7. -/
  | sqIdxOutOfRange
deriving DecidableEq, Repr

/-- Why a command has no meaning. -/
inductive Refusal where
  /-- An instruction without a meaning yet. Raised by nothing: every instruction has its meaning. Safe. -/
  | notModelled (mnemonic : String)
  /-- An operand no port can express, or a line that is not of the grammar (30_encoding R79, R82, I18). Raised by the
  assembler (Machine/Assembler.lean, Machine/HostProgram.lean), never by `step`. Safe: the hardware cannot be given it. -/
  | notSpelled
deriving DecidableEq, Repr

/-- The machine right after reset (70_reset_and_hazards R251): every register of the block at its reset
value, the three writes of reset in the history. The chain holds its power-up contents, which no reset touches (R253,
60_exceptions R231; log 4). No input is fixed yet (log 2, log 3). -/
def State.reset : State :=
  { code := 0x00
    frame := 0x000000000000
    sqFrame := 0x000000000000
    sqIdx := 0
    sqPhase := .idle
    lvData := false
    lvSclk := false
    lvLclk := false
    halted := false
    haltCause := .none
    chSr := Config.powerUpShift
    chOut := Config.powerUpLatch
    events := [.written .data false, .written .sclk false, .written .lclk false]
    inputs := []
    draws := 0 }

end Sys2Proof.Machine
end

