-- ==== Sys2Proof/Machine/Operands.lean ====
section
/-! DEFINITION. The operand forms: where a step reads its inputs, how the lanes of a text or frame lie, and which bit a
bit slot shifts. -/

namespace Sys2Proof.Machine

open Sys2Proof

/-- The sample of the input ports that the next step reads (30_encoding R70). -/
def State.sample (s : State) : Inputs :=
  match s.inputs with
  | [] => Config.freeInputs s.draws
  | p :: _ => p

/-- The state once that sample is read: the next sample is up, or one free draw has been made. -/
def State.consume (s : State) : State :=
  match s.inputs with
  | [] => { s with draws := s.draws + 1 }
  | _ :: rest => { s with inputs := rest }

/-- The state whose next step reads `p`, before the samples that stood there. -/
def State.drive (p : Inputs) (s : State) : State := { s with inputs := p :: s.inputs }

/-- Lane `i` of a 48-bit text or frame, bits `[47-8i : 40-8i]` (20_memory R52, R54; 42_serializer R121). -/
def lane (v : Frame) (i : Fin 6) : Byte := v.extractLsb' (40 - 8 * i.val) 8

/-- What register `r` of the chain, counted from the serial input, holds of a 48-bit value: bits `[8r+7 : 8r]`
(60_exceptions R232). -/
def chainRegister (v : Frame) (r : Fin 6) : Byte := v.extractLsb' (8 * r.val) 8

/-- The bit of the frame that a bit slot shifts, `f[i]` (43_shift_bus R146); `none` where `i` is no bit of the frame. -/
def frameBit (f : Frame) (i : BitVec 6) : Option Level :=
  if i.toNat < 48 then some (f.getLsbD i.toNat) else none

end Sys2Proof.Machine
end

