-- ==== Sys2Proof/Machine/Flags.lean ====
section
/-! DEFINITION. The combinational status of the block and its output ports: BUSY, READY, STATUS, and the codes of the
typed registers. Nothing here has storage of its own (10_state R29, R32, R33). -/

namespace Sys2Proof.Machine

open Sys2Proof

/-- BUSY (10_state R29). -/
def State.busy (s : State) : Bool := s.sqPhase != .idle

/-- READY (10_state R29). -/
def State.ready (s : State) : Bool := !s.busy && !s.halted

/-- Whether a step with the sample `p` accepts the command on the ports (30_encoding R76). -/
def State.accepts (p : Inputs) (s : State) : Bool :=
  !p.rst && !s.halted && !p.abortReq && !s.busy && p.cmdValid

/-- The encoding of SQ_PHASE (10_state R25). -/
def Phase.toBits : Phase → BitVec 3
  | .idle => 0
  | .latchLow => 1
  | .clkLow => 2
  | .data => 3
  | .clkHigh => 4
  | .latchHigh => 5

/-- The encoding of HALT_CAUSE (60_exceptions R201). -/
def HaltCause.toBits : HaltCause → BitVec 3
  | .none => 0
  | .illegalCommand => 1
  | .badLength => 2
  | .badWidth => 3
  | .pinWriteFailed => 4
  | .abort => 5
  | .shutdown => 6

/-- STATUS: LCLK, SCLK, DATA, HALT_CAUSE, HALTED, BUSY from bit 7 down to bit 0 (10_state R32). -/
def State.status (s : State) : Byte :=
  BitVec.ofBool s.lvLclk ++ BitVec.ofBool s.lvSclk ++ BitVec.ofBool s.lvData ++ s.haltCause.toBits ++
    BitVec.ofBool s.halted ++ BitVec.ofBool s.busy

/-- The sequencer's program counter (10_state R27). -/
def State.pc (s : State) : Phase × BitVec 6 := (s.sqPhase, s.sqIdx)

/-- The level the block drives on a logical pin (10_state R26). -/
def State.level (s : State) : Pin → Level
  | .data => s.lvData
  | .sclk => s.lvSclk
  | .lclk => s.lvLclk

/-- The fixed identifier of a logical pin (20_memory R51). -/
def pinId : Pin → Nat
  | .data => 0
  | .sclk => 1
  | .lclk => 2

/-- The logical pin of an identifier. Identifier 3 stands for the button, which the block does not use (20_memory R51). -/
def pinOfId : Nat → Option Pin
  | 0 => some .data
  | 1 => some .sclk
  | 2 => some .lclk
  | _ => none

/-- Each physical output that a logical pin drives, with its level (20_memory R51). -/
def State.physicalLevels (s : State) : List (Nat × Level) :=
  [Pin.data, Pin.sclk, Pin.lclk].map fun p => (Config.pinMap p, s.level p)

/-- One reading of the output ports (30_encoding R71). -/
structure Outputs where
  data : Level
  sclk : Level
  lclk : Level
  codeOut : Byte
  frameOut : Frame
  ready : Bool
  busy : Bool
  halted : Bool
  haltCause : BitVec 3
  statusOut : Byte
deriving DecidableEq, Repr

/-- What the output ports show in a state (30_encoding R71). -/
def State.outputs (s : State) : Outputs :=
  { data := s.lvData
    sclk := s.lvSclk
    lclk := s.lvLclk
    codeOut := s.code
    frameOut := s.frame
    ready := s.ready
    busy := s.busy
    halted := s.halted
    haltCause := s.haltCause.toBits
    statusOut := s.status }

/-- What digit position `d` shows, 0 the left-most: lane `d` of CH_OUT (60_exceptions R237). -/
def State.digit (s : State) (d : Fin 6) : Byte := lane s.chOut d

/-- The LED segments of a digit (60_exceptions R238, 41_encoder R105). -/
inductive Segment where
  | a | b | c | d | e | f | g | dp
deriving DecidableEq, Repr, Inhabited

/-- The bit of a lane that drives a segment under the reference instance REF (41_encoder R105, 60_exceptions R238). -/
def Segment.refBit : Segment → Nat
  | .a => 0
  | .b => 1
  | .c => 2
  | .d => 3
  | .e => 4
  | .f => 5
  | .g => 6
  | .dp => 7

/-- Whether a lane lights a segment under REF, where 1 means lit (60_exceptions R238). -/
def refLit (v : Byte) (seg : Segment) : Bool := v.getLsbD seg.refBit

end Sys2Proof.Machine
end

