-- ==== Sys2Proof/Machine/Ops.lean ====
section
/-! DEFINITION. The named operations over the state: a pin write with the chain's reaction, cleanup, entering a halt
(the exception of this block), reset (the only way out of one), and a rejected write. -/

namespace Sys2Proof.Machine

open Sys2Proof

/-- One shift of the chain: `CH_SR[46:0] ++ LV_DATA` (60_exceptions R233). -/
def shiftIn (sr : Frame) (b : Level) : Frame := sr.extractLsb' 0 47 ++ BitVec.ofBool b

/-- A write that raises a pin from 0 to 1 (60_exceptions R233, R234). -/
def rises (before after : Level) : Bool := !before && after

/-- Appends one entry to the pin event history (20_memory R56). -/
def State.record (e : PinEvent) (s : State) : State := { s with events := s.events ++ [e] }

/-- `PinWrite(p, v)`: records the write, drives the pin, and delivers the edge to the chain (00_scope R12). A rising SCLK
shifts the chain (60_exceptions R233), a rising LCLK latches it (R234), and no other write changes it (R236). -/
def State.pinWrite (p : Pin) (v : Level) (s : State) : State :=
  let t := s.record (.written p v)
  match p with
  | .data => { t with lvData := v }
  | .sclk => { t with lvSclk := v, chSr := if rises s.lvSclk v then shiftIn s.chSr s.lvData else s.chSr }
  | .lclk => { t with lvLclk := v, chOut := if rises s.lvLclk v then s.chSr else s.chOut }

/-- `cleanup()`: drives DATA, SCLK and LCLK low, in that order; these writes do not read `pin_ok` (60_exceptions R211). -/
def State.cleanup (s : State) : State :=
  ((s.pinWrite .data false).pinWrite .sclk false).pinWrite .lclk false

/-- `raise Halt(cause)` (60_exceptions R210): cleanup, the SEND in progress dropped, HALTED and HALT_CAUSE set. Every
other register keeps its value. -/
def State.raiseHalt (cause : HaltCause) (s : State) : State :=
  { s.cleanup with sqPhase := .idle, halted := true, haltCause := cause }

/-- `reset()` (70_reset_and_hazards R251): every register of the block at its reset value, the three writes that drive the
pins low recorded. The chain is not reset (R253). The only way out of a halt (60_exceptions R212). -/
def State.resetBlock (s : State) : State :=
  { s.cleanup with
    code := 0
    frame := 0
    sqFrame := 0
    sqIdx := 0
    sqPhase := .idle
    halted := false
    haltCause := .none }

/-- The chain after a rejected pin write: any contents (60_exceptions R213 (b), log 5). -/
def State.loseChain (s : State) : State :=
  { s with
    chSr := Config.rejectedShift s.draws
    chOut := Config.rejectedLatch s.draws
    draws := s.draws + 1 }

/-- A pin write that the digital output interface rejects (60_exceptions R213): recorded as rejected, the level register
unchanged, the chain unspecified, and the halt in the same step. -/
def State.rejectWrite (p : Pin) (v : Level) (s : State) : State :=
  ((s.record (.rejected p v)).loseChain).raiseHalt .pinWriteFailed

/-- The three writes of one bit slot, for every bit from `n - 1` down to 0 (43_shift_bus R140). For `n > 48` the spec gives
no bit `f[i]` with `i > 47`: there the model reads 0 (DESIGN CHOICE, log 21). -/
def bitSlots (f : Frame) : Nat → List PinEvent
  | 0 => []
  | i + 1 => [.written .sclk false, .written .data (f.getLsbD i), .written .sclk true] ++ bitSlots f i

/-- `sendSeq(f, W)`, the pin writes of a send (43_shift_bus R140). The machine does not read it: the statements compare
the history with it. For W > 48 the bits beyond the frame read 0 (DESIGN CHOICE, log 21). -/
def sendSeq (f : Frame) (w : Nat) : List PinEvent :=
  [.written .lclk false] ++ bitSlots f w ++ [.written .lclk true]

end Sys2Proof.Machine
end

