-- ==== Sys2Proof/Machine/SegmentEncoder.lean ====
section
/-! DEFINITION. The SegmentEncoder and ENCODE (41_encoder). -/

namespace Sys2Proof.Machine

open Sys2Proof

/-- The supported character of a byte code, case-sensitive (41_encoder R100). -/
def supportedOf (c : Byte) : Option Supported :=
  match c.toNat with
  | 0x30 => some .d0
  | 0x31 => some .d1
  | 0x32 => some .d2
  | 0x33 => some .d3
  | 0x34 => some .d4
  | 0x35 => some .d5
  | 0x36 => some .d6
  | 0x37 => some .d7
  | 0x38 => some .d8
  | 0x39 => some .d9
  | 0x48 => some .letterH
  | 0x46 => some .letterF
  | 0x50 => some .letterP
  | 0x20 => some .space
  | _ => none

/-- The encoder function of a segment table: SEG_TABLE on SUPPORTED, SENTINEL elsewhere (41_encoder R104). -/
def encWith (t : SegTable) (c : Byte) : Byte :=
  match supportedOf c with
  | some g => t.code g
  | none => t.sentinel

/-- `enc`, the encoder function of this build (41_encoder R104). -/
def enc (c : Byte) : Byte := encWith Config.segTable c

/-- ENCODE (41_encoder R107): the segment code of one character goes to CODE, and nothing else changes. -/
def execEncode (c : Byte) (s : State) : Host.Outcome State Fault Refusal :=
  .next { s with code := enc c }

end Sys2Proof.Machine
end

