-- ==== Sys2Proof/Machine/FrameSerializer.lean ====
section
/-! DEFINITION. The FrameSerializer and SERIALIZE (42_serializer). -/

namespace Sys2Proof.Machine

open Sys2Proof

/-- The frame of six segment codes of a segment table, left-most digit position first (42_serializer R120). -/
def serWith (t : SegTable) (text : Frame) : Frame :=
  encWith t (lane text 0) ++ encWith t (lane text 1) ++ encWith t (lane text 2) ++ encWith t (lane text 3) ++
    encWith t (lane text 4) ++ encWith t (lane text 5)

/-- `ser`, the frame function of this build, on the six characters of a text (42_serializer R120, R122). -/
def ser (text : Frame) : Frame := serWith Config.segTable text

/-- SERIALIZE (42_serializer R122): the frame of a six-character text goes to FRAME; any other length halts with
BAD_LENGTH and writes no frame (R123). -/
def execSerialize (text : Frame) (len : BitVec 4) (s : State) : Host.Outcome State Fault Refusal :=
  if len.toNat = Config.nDigits then .next { s with frame := ser text }
  else .next (s.raiseHalt .badLength)

end Sys2Proof.Machine
end

