-- ==== Sys2Proof/Machine/ShiftRegisterBus.lean ====
section
/-! DEFINITION. The ShiftRegisterBus: the acceptance of SEND and the sequencer's micro-program (43_shift_bus). -/

namespace Sys2Proof.Machine

open Sys2Proof

/-- SEND acceptance (43_shift_bus R142): SQ_FRAME takes the frame and the pc goes to (LATCH_LOW, 47). A bitWidth other
than SEND_WIDTH halts with BAD_WIDTH and writes no pin of the send (R143). -/
def execSend (f : Frame) (w : BitVec 6) (s : State) : Host.Outcome State Fault Refusal :=
  if w.toNat = Config.sendWidth then .next { s with sqFrame := f, sqPhase := .latchLow, sqIdx := 47 }
  else .next (s.raiseHalt .badWidth)

/-- The one transition of the pc after the write of its phase (43_shift_bus R144 to R148). -/
def State.advancePc (s : State) : State :=
  match s.sqPhase with
  | .idle => s
  | .latchLow => { s with sqPhase := .clkLow }
  | .clkLow => { s with sqPhase := .data }
  | .data => { s with sqPhase := .clkHigh }
  | .clkHigh => if s.sqIdx = 0 then { s with sqPhase := .latchHigh } else { s with sqIdx := s.sqIdx - 1, sqPhase := .clkLow }
  | .latchHigh => { s with sqPhase := .idle }

/-- The attempt of one pin write of the micro-program: `pin_ok` says whether the digital output interface accepts it
(43_shift_bus R149, 30_encoding R78). -/
def State.attempt (pinOk : Bool) (p : Pin) (v : Level) (s : State) : State :=
  if pinOk then (s.pinWrite p v).advancePc else s.rejectWrite p v

/-- The sequencer step (43_shift_bus R149): the pin write that SQ_PHASE names (10_state R25), then one transition. The
machine runs it only while BUSY. A DATA write needs a bit of the frame; SQ_IDX always names one (10_state R24, log 7). -/
def State.sequencerStep (pinOk : Bool) (s : State) : Host.Outcome State Fault Refusal :=
  match s.sqPhase with
  | .idle => .next s
  | .latchLow => .next (s.attempt pinOk .lclk false)
  | .clkLow => .next (s.attempt pinOk .sclk false)
  | .data =>
    match frameBit s.sqFrame s.sqIdx with
    | some b => .next (s.attempt pinOk .data b)
    | none => .fault .sqIdxOutOfRange
  | .clkHigh => .next (s.attempt pinOk .sclk true)
  | .latchHigh => .next (s.attempt pinOk .lclk true)

end Sys2Proof.Machine
end

