-- ==== Sys2Proof/Machine/System.lean ====
section
/-! DEFINITION. The system command SHUTDOWN (44_system). -/

namespace Sys2Proof.Machine

open Sys2Proof

/-- SHUTDOWN (44_system R180): the teardown half of the output interface's pair, then the halt. -/
def execShutdown (s : State) : Host.Outcome State Fault Refusal :=
  .next (s.raiseHalt .shutdown)

end Sys2Proof.Machine
end

