-- ==== Sys2Proof/Machine/Dispatch.lean ====
section
/-! DEFINITION. The meaning of each command, one arm a constructor (30_encoding R77, 70_reset_and_hazards R250). -/

namespace Sys2Proof.Machine

open Sys2Proof

def exec (i : Instr) (s : State) : Host.Outcome State Fault Refusal :=
  match i with
  | .encode c => Sys2Proof.Machine.execEncode c s
  | .serialize text len => Sys2Proof.Machine.execSerialize text len s
  | .send f w => Sys2Proof.Machine.execSend f w s
  | .shutdown => Sys2Proof.Machine.execShutdown s

end Sys2Proof.Machine
end

