-- ==== Sys2Proof/Machine/Control.lean ====
section
/-! DEFINITION. What one step does with one sample of the inputs: the priority of simultaneous events and the acceptance
of a command (60_exceptions R223, 70_reset_and_hazards R250). -/

namespace Sys2Proof.Machine

open Sys2Proof

/-- The accepting step: the command the decoder reads runs; a reserved opcode halts with ILLEGAL_COMMAND (30_encoding R76,
R80). -/
def State.accept (c : CommandPorts) (s : State) : Host.Outcome State Fault Refusal :=
  match decode c with
  | .ok i => exec i s
  | .error _ => .next (s.raiseHalt .illegalCommand)

/-- One step with the sample `p`, in the order of 60_exceptions R223: reset, a halt that stays, abort, the sequencer, a
command, nothing. -/
def State.react (p : Inputs) (s : State) : Host.Outcome State Fault Refusal :=
  if p.rst then .next s.resetBlock
  else if s.halted then .next s
  else if p.abortReq then .next (s.raiseHalt .abort)
  else if s.busy then s.sequencerStep p.pinOk
  else if p.cmdValid then s.accept p.cmd
  else .next s

/-- The ports present the command `c`, and everything that its acceptance in the very next step needs holds
(30_encoding R76): no reset, no abort, not HALTED, not BUSY. The sample replaces the next one. Log 3. -/
def State.present (c : CommandPorts) (s : State) : State :=
  { s with inputs := { cmdValid := true, cmd := c } :: s.inputs.tail, halted := false, sqPhase := .idle }

end Sys2Proof.Machine
end

