-- ==== Sys2Proof/Machine/Step.lean ====
section
/-! DEFINITION. One step of the machine, and how an instruction is placed where the next step takes it. -/

namespace Sys2Proof.Machine

open Sys2Proof

/-- One step (70_reset_and_hazards R250): the next sample of the input ports is read, and the block reacts to it. -/
def step (s : State) : Host.Outcome State Fault Refusal := s.consume.react s.sample

/-- The command word in the low `nbits` bits of `w` on the command port, so that the very next step accepts it; every
operand port is 0. Log 3. -/
def State.withFetchWord (s : State) (nbits w : Nat) : State := s.present (commandWord nbits w)

end Sys2Proof.Machine
end

