-- ==== Sys2Proof/Machine/Assembler.lean ====
section
/-! DEFINITION. The text of host programs: the boundary that refuses what no port can express, the assembler and the
disassembler (30_encoding R79, R82, R83). `step` uses nothing of this file. -/

namespace Sys2Proof.Machine

open Sys2Proof

/-- The 48 bits of `text_in` for the codes of a string: `s[i]` in lane `i` for `i < min(len, 6)`, the other lanes 0x00
(30_encoding R82). -/
def textPort (t : List Nat) : Frame :=
  BitVec.ofNat 8 (t.getD 0 0) ++ BitVec.ofNat 8 (t.getD 1 0) ++ BitVec.ofNat 8 (t.getD 2 0) ++
    BitVec.ofNat 8 (t.getD 3 0) ++ BitVec.ofNat 8 (t.getD 4 0) ++ BitVec.ofNat 8 (t.getD 5 0)

/-- SHOW becomes SERIALIZE and SEND FRAME, 48; every other line is itself (44_system R183). -/
def expandLine : HostCommand → List HostCommand
  | .showText t => [.serialize t, .send .frameOut 48]
  | c => [c]

/-- The frame a SEND line stands for when `frame_out` shows `out` (30_encoding R82, 44_system R184). -/
def frameValue (out : Frame) : FrameOperand → Frame
  | .literal v => BitVec.ofNat 48 v
  | .frameOut => out

/-- The command a line of an expanded program presents when `frame_out` shows `out` (30_encoding R82). What no port can
express is refused (R79), and so is SHOW, which has no opcode (R84). -/
def assembleLine (out : Frame) (c : HostCommand) : Except Refusal Instr :=
  if c.wellFormed then
    match c with
    | .encode ch => .ok (.encode (BitVec.ofNat 8 ch))
    | .serialize t => .ok (.serialize (textPort t) (BitVec.ofNat 4 t.length))
    | .send f w => .ok (.send (frameValue out f) (BitVec.ofInt 6 w))
    | .shutdown => .ok .shutdown
    | .showText _ => .error .notSpelled
  else .error .notSpelled

/-! ### Reading a program (30_encoding R82) -/

/-- A character `byte` of the grammar: printable ASCII (30_encoding R82). -/
def isByte (c : Char) : Bool := 0x20 ≤ c.toNat && c.toNat ≤ 0x7E

/-- White space between the tokens of a line: spaces and tabs. DESIGN CHOICE, log 13. -/
def isBlank (c : Char) : Bool := c == ' ' || c == '\t'

/-- A letter of a mnemonic, upper case (30_encoding R82). -/
def isUpperLetter (c : Char) : Bool := 'A'.toNat ≤ c.toNat && c.toNat ≤ 'Z'.toNat

/-- The value of a decimal digit. -/
def decimalDigit (c : Char) : Option Nat :=
  if '0'.toNat ≤ c.toNat && c.toNat ≤ '9'.toNat then some (c.toNat - '0'.toNat) else none

/-- The value of a hexadecimal digit, in either case (DESIGN CHOICE, log 13). -/
def hexDigit (c : Char) : Option Nat :=
  if 'a'.toNat ≤ c.toNat && c.toNat ≤ 'f'.toNat then some (c.toNat - 'a'.toNat + 10)
  else if 'A'.toNat ≤ c.toNat && c.toNat ≤ 'F'.toNat then some (c.toNat - 'A'.toNat + 10)
  else decimalDigit c

/-- The text without its leading white space. -/
def skipBlanks (cs : List Char) : List Char := cs.dropWhile isBlank

/-- Nothing but white space and a comment is left of the line (30_encoding R82). The grammar has no production for
`comment`: any characters up to the end of the line, or none. DESIGN CHOICE, log 13. -/
def lineEnds (cs : List Char) : Bool :=
  match skipBlanks cs with
  | [] => true
  | c :: _ => c == '#'

/-- The number that a run of digits at the head of the text spells, carrying `acc`, and the text after it. -/
def readDigits (base : Nat) (digit : Char → Option Nat) (acc : Nat) : List Char → Nat × List Char
  | [] => (acc, [])
  | c :: cs =>
    match digit c with
    | some d => readDigits base digit (acc * base + d) cs
    | none => (acc, c :: cs)

/-- A number: one digit or more, leading zeros allowed. The grammar gives `hex` this form; it has no production for
`decimal`, which takes the same one. DESIGN CHOICE, log 13. -/
def readNumber (base : Nat) (digit : Char → Option Nat) : List Char → Option (Nat × List Char)
  | [] => none
  | c :: cs => (digit c).map fun d => readDigits base digit d cs

/-- `hex` of the grammar (30_encoding R82). -/
def readHex : List Char → Option (Nat × List Char)
  | '0' :: 'x' :: cs => readNumber 16 hexDigit cs
  | _ => none

/-- `charop` of the grammar (30_encoding R82). -/
def readCharop (cs : List Char) : Option (Nat × List Char) :=
  match cs with
  | '\'' :: c :: '\'' :: rest => if isByte c && c != '\'' then some (c.toNat, rest) else none
  | _ => readHex cs

/-- The characters of a string up to its closing quote. -/
def readStringBody : List Char → Option (List Nat × List Char)
  | [] => none
  | c :: cs =>
    if c == '"' then some ([], cs)
    else if isByte c then (readStringBody cs).map fun r => (c.toNat :: r.1, r.2)
    else none

/-- `strop` of the grammar (30_encoding R82). -/
def readStrop : List Char → Option (List Nat × List Char)
  | [] => none
  | c :: cs => if c == '"' then readStringBody cs else none

/-- `frameop` of the grammar (30_encoding R82). -/
def readFrameop (cs : List Char) : Option (FrameOperand × List Char) :=
  if cs.takeWhile isUpperLetter = ['F', 'R', 'A', 'M', 'E'] then some (.frameOut, cs.dropWhile isUpperLetter)
  else (readHex cs).map fun r => (.literal r.1, r.2)

/-- `widthop` of the grammar (30_encoding R82): `hex` where the text begins as one, else `decimal`, whose form is the
model's (DESIGN CHOICE, log 13). -/
def readWidthop (cs : List Char) : Option (Nat × List Char) :=
  match readHex cs with
  | some r => some r
  | none => readNumber 10 decimalDigit cs

/-- The two operands of SEND (30_encoding R82). -/
def readSend (cs : List Char) : Option (HostCommand × List Char) :=
  match readFrameop cs with
  | none => none
  | some (f, rest) =>
    match skipBlanks rest with
    | ',' :: rest => (readWidthop (skipBlanks rest)).map fun r => (.send f (r.1 : Int), r.2)
    | _ => none

/-- `command` of the grammar (30_encoding R82). -/
def readCommand (cs : List Char) : Option (HostCommand × List Char) :=
  let word := cs.takeWhile isUpperLetter
  let rest := cs.dropWhile isUpperLetter
  let args := skipBlanks rest
  if word = ['E', 'N', 'C', 'O', 'D', 'E'] then (readCharop args).map fun r => (.encode r.1, r.2)
  else if word = ['S', 'E', 'R', 'I', 'A', 'L', 'I', 'Z', 'E'] then (readStrop args).map fun r => (.serialize r.1, r.2)
  else if word = ['S', 'E', 'N', 'D'] then readSend args
  else if word = ['S', 'H', 'U', 'T', 'D', 'O', 'W', 'N'] then some (.shutdown, rest)
  else if word = ['S', 'H', 'O', 'W'] then (readStrop args).map fun r => (.showText r.1, r.2)
  else none

/-- `line` of the grammar: a command or none, then a comment or none (30_encoding R82). -/
def readLine (cs : List Char) : Except Refusal (Option HostCommand) :=
  if lineEnds cs then .ok none
  else
    match readCommand (skipBlanks cs) with
    | some (c, rest) => if lineEnds rest then .ok (some c) else .error .notSpelled
    | none => .error .notSpelled

/-- The lines of a text, each ended by a newline (30_encoding R82); `acc` is the line begun, last character first. -/
def splitLines (acc : List Char) : List Char → Option (List (List Char))
  | [] => if acc.isEmpty then some [] else none
  | c :: cs =>
    if c == '\n' then (splitLines [] cs).map fun ls => acc.reverse :: ls else splitLines (c :: acc) cs

/-- The commands of a list of lines, in order. -/
def readLines : List (List Char) → Except Refusal (List HostCommand)
  | [] => .ok []
  | l :: ls =>
    match readLine l, readLines ls with
    | .ok (some c), .ok cs => .ok (c :: cs)
    | .ok none, .ok cs => .ok cs
    | _, _ => .error .notSpelled

/-- `program` of the grammar (30_encoding R82). A line whose operands no port can express is refused as well (R79). -/
def readProgram (cs : List Char) : Except Refusal (List HostCommand) :=
  match splitLines [] cs with
  | none => .error .notSpelled
  | some ls =>
    match readLines ls with
    | .ok p => if p.all HostCommand.wellFormed then .ok p else .error .notSpelled
    | .error r => .error r

/-! ### Writing a command (30_encoding R83) -/

/-- A hexadecimal digit, upper case (DESIGN CHOICE, log 14). -/
def hexChar (d : Nat) : Char := if d < 10 then Char.ofNat ('0'.toNat + d) else Char.ofNat ('A'.toNat + (d - 10))

/-- The last `n` hexadecimal digits of a number, most significant first. -/
def hexChars (v : Nat) : Nat → List Char
  | 0 => []
  | n + 1 => hexChars (v / 16) n ++ [hexChar (v % 16)]

/-- A width in decimal. -/
def widthChars (w : BitVec 6) : List Char :=
  if w.toNat < 10 then [hexChar w.toNat] else [hexChar (w.toNat / 10), hexChar (w.toNat % 10)]

/-- A `charop`: the quoted character where the grammar has one, a number where not (DESIGN CHOICE, log 14). -/
def charChars (c : Byte) : List Char :=
  if isByte (Char.ofNat c.toNat) && c != 0x27 then ['\'', Char.ofNat c.toNat, '\'']
  else ['0', 'x'] ++ hexChars c.toNat 2

/-- The codes of the characters a SERIALIZE presents: the lanes of the text, and spaces for the characters beyond the
sixth, which no port carries. For a length under six it takes the first `len` lanes and drops the others, whatever bytes
they hold: `strop` of 30_encoding R82 spells no lane beyond its length, and R83 does not say what is printed then. Both are
the model's (DESIGN CHOICE, log 14). -/
def textCodes (text : Frame) (len : BitVec 4) : List Nat :=
  ([lane text 0, lane text 1, lane text 2, lane text 3, lane text 4, lane text 5].map BitVec.toNat
    ++ List.replicate 9 0x20).take len.toNat

/-- A `strop`, where the grammar has one for the characters (log 14). -/
def stringChars (t : List Nat) : Option (List Char) :=
  if t.all fun c => isByte (Char.ofNat c) && c != 0x22 then some (['"'] ++ t.map Char.ofNat ++ ['"']) else none

/-- A command with its mnemonic and operands in the syntax of the assembler; `none` for a text that the syntax cannot
spell (30_encoding R83). -/
def writeInstr : Instr → Option (List Char)
  | .encode c => some (['E', 'N', 'C', 'O', 'D', 'E', ' '] ++ charChars c)
  | .serialize text len =>
    (stringChars (textCodes text len)).map fun s => ['S', 'E', 'R', 'I', 'A', 'L', 'I', 'Z', 'E', ' '] ++ s
  | .send f w => some (['S', 'E', 'N', 'D', ' ', '0', 'x'] ++ hexChars f.toNat 12 ++ [',', ' '] ++ widthChars w)
  | .shutdown => some ['S', 'H', 'U', 'T', 'D', 'O', 'W', 'N']

/-- A bit as a digit. -/
def bitChar (b : Bool) : Char := if b then '1' else '0'

/-- The disassembler: an accepted command in the assembler's syntax, a reserved opcode as `.illegal 0b<op>`, never a
pseudo-instruction (30_encoding R83). -/
def disassemble (p : CommandPorts) : Option (List Char) :=
  match decode p with
  | .ok i => writeInstr i
  | .error (.reservedOpcode op) =>
    some (['.', 'i', 'l', 'l', 'e', 'g', 'a', 'l', ' ', '0', 'b'] ++
      [bitChar (op.getLsbD 2), bitChar (op.getLsbD 1), bitChar (op.getLsbD 0)])

end Sys2Proof.Machine
end

