-- ==== Sys2Proof/Machine/HostProgram.lean ====
section
/-! DEFINITION. The host beside the machine (44_system R183 to R186): what it presents, that it holds what it has
presented, and the runs of host programs. The moves of the host are those of `HostChoice` and `Presentation`; none of them
breaks a duty of R186. -/

namespace Sys2Proof.Machine

open Sys2Proof

/-- What the host and the environment are free to choose in one step of a run (44_system R184, R186). -/
structure HostChoice where
  /-- A further reset. The commands not yet accepted stay pending (log 15). -/
  rst : Bool := false
  /-- The termination signal. -/
  abortReq : Bool := false
  /-- The host presents its next command, where it may still wait with it. -/
  present : Bool := true
  /-- The digital output interface accepts a pin write. -/
  pinOk : Bool := true
deriving DecidableEq, Repr, Inhabited

/-- What the host presents: a line of an expanded host program (44_system R184), or any opcode with any operands, the
reserved opcodes among them (R186). -/
inductive Presentation where
  | line (c : HostCommand)
  | ports (c : CommandPorts)
deriving DecidableEq, Repr

/-- The command ports of a presentation when `frame_out` shows `out` (30_encoding R82, 44_system R184). -/
def portsOf (out : Frame) : Presentation → Except Refusal CommandPorts
  | .line c => (assembleLine out c).map encode
  | .ports c => .ok c

/-- The host and the machine: the machine, the presentations not yet accepted, the command that stands on the ports
unaccepted with the operands it was first presented with, and whether the host may wait before it presents the next. -/
structure HostRun where
  state : State
  pending : List Presentation
  held : Option CommandPorts
  mayWait : Bool
deriving DecidableEq, Repr

/-- The host from reset: it presents its first command in the first step after reset (44_system R184). -/
def startHost (ps : List Presentation) : HostRun :=
  { state := .reset, pending := ps, held := none, mayWait := false }

/-- The run of a program from reset, every SHOW expanded (44_system R183, R184). -/
def startProgram (p : List HostCommand) : HostRun := startHost ((p.flatMap expandLine).map .line)

/-- The command on the ports in this step. A command once presented is held, its operands unchanged, until a step accepts
it (30_encoding R76, 44_system R186, 70_reset_and_hazards R262); so FRAME is `frame_out` in the step that first presents
the SEND (44_system R184, log 15). Otherwise the next one is presented, or none while the host waits between commands. -/
def HostRun.onPorts (ch : HostChoice) (h : HostRun) : Except Refusal (Option CommandPorts) :=
  match h.held with
  | some c => .ok (some c)
  | none =>
    match h.pending with
    | [] => .ok none
    | x :: _ => if ch.present || !h.mayWait then (portsOf h.state.frame x).map some else .ok none

/-- The sample of the input ports with a command on them, or none (30_encoding R70). -/
def HostChoice.sample (ch : HostChoice) : Option CommandPorts → Inputs
  | some c => { rst := ch.rst, abortReq := ch.abortReq, cmdValid := true, cmd := c, pinOk := ch.pinOk }
  | none => { rst := ch.rst, abortReq := ch.abortReq, pinOk := ch.pinOk }

/-- The sample the machine reads in this step of the run. -/
def HostRun.sample (ch : HostChoice) (h : HostRun) : Except Refusal Inputs := (h.onPorts ch).map ch.sample

/-- One step of a run: the machine reads the host's sample; a command that the step accepts is pending no more, and one it
does not accept stays on the ports (30_encoding R76, 44_system R184). -/
def HostRun.step (ch : HostChoice) (h : HostRun) : Host.Outcome HostRun Fault Refusal :=
  match h.onPorts ch with
  | .error r => .refused r
  | .ok c =>
    match Sys2Proof.Machine.step (h.state.drive (ch.sample c)) with
    | .next t =>
      if h.state.accepts (ch.sample c) then .next { state := t, pending := h.pending.tail, held := none, mayWait := true }
      else .next { state := t, pending := h.pending, held := c, mayWait := true }
    | .fault r => .fault r
    | .refused r => .refused r

/-- The held command is the first of the pending ones, with the operands of the step that first presented it
(44_system R184). -/
def HostRun.HoldsFirst (h : HostRun) : Prop :=
  ∀ c, h.held = some c → ∃ x xs out, h.pending = x :: xs ∧ portsOf out x = .ok c

/-- The run has ended: HALTED, or every command accepted and BUSY = 0 (44_system R185). -/
def HostRun.ended (h : HostRun) : Bool := h.state.halted || (h.pending.isEmpty && !h.state.busy)

/-- The run with one choice for each step, stopping at its end (44_system R185). -/
def HostRun.run : List HostChoice → HostRun → Host.Outcome HostRun Fault Refusal
  | [], h => .next h
  | ch :: chs, h =>
    if h.ended then .next h
    else
      match h.step ch with
      | .next h' => HostRun.run chs h'
      | .fault r => .fault r
      | .refused r => .refused r

/-- A run that ended by a halt other than SHUTDOWN (44_system R185). -/
def HostRun.faulted (h : HostRun) : Bool := h.state.halted && h.state.haltCause != .shutdown

end Sys2Proof.Machine
end

