-- ==== Sys2Proof/Safety.lean ====
section
/-! DEFINITION. The terms of the claims: which states are legal, the block without its chain, an undisturbed step, runs, and
what a SEND that is part way has done. -/

namespace Sys2Proof.Machine

open Sys2Proof

/-- SQ_PHASE is one of the three phases of a bit slot (43_shift_bus R145 to R147). -/
def Phase.inSlot : Phase → Bool
  | .clkLow => true
  | .data => true
  | .clkHigh => true
  | _ => false

/-- The legal states of the block: SQ_IDX is 0..47 (10_state R24); HALT_CAUSE is NONE exactly when not HALTED (R30, R31); a
halted block is idle with its lines low (R30); LATCH_LOW stands before bit 47 and LATCH_HIGH after bit 0 (R28); in the bit
slots LCLK is low, DATA is written while SCLK is low and holds the slot's bit at the rising edge (43_shift_bus R152). -/
structure State.Legal (s : State) : Prop where
  idx_range : s.sqIdx.toNat ≤ 47
  cause_iff : s.halted = true ↔ s.haltCause ≠ .none
  halted_idle : s.halted = true → s.sqPhase = .idle
  halted_low : s.halted = true → s.lvData = false ∧ s.lvSclk = false ∧ s.lvLclk = false
  latch_low_idx : s.sqPhase = .latchLow → s.sqIdx = 47
  latch_high_idx : s.sqPhase = .latchHigh → s.sqIdx = 0 ∧ s.lvSclk = true ∧ s.lvLclk = false
  slot_lclk : s.sqPhase.inSlot = true → s.lvLclk = false
  data_sclk : s.sqPhase = .data ∨ s.sqPhase = .clkHigh → s.lvSclk = false
  edge_data : s.sqPhase = .clkHigh → s.lvData = s.sqFrame.getLsbD s.sqIdx.toNat

/-- A state without its chain: all that the block and the host can see or set (10_state R35, 60_exceptions R239). -/
def State.blockView (s : State) : State := { s with chSr := 0, chOut := 0 }

/-- A sample under which a step of a SEND goes on: no reset, no abort, the pin write accepted (43_shift_bus R150). -/
def undisturbed (p : Inputs) : Bool := !p.rst && !p.abortReq && p.pinOk

/-- The host presents SEND f, 48 and nothing else happens (43_shift_bus R141). -/
def sendSample (f : Frame) : Inputs := { cmdValid := true, cmd := encode (.send f 48) }

/-- `n` steps, stopping at the first fault or refusal. -/
def runSteps : Nat → State → Host.Outcome State Fault Refusal
  | 0, s => .next s
  | n + 1, s =>
    match step s with
    | .next t => runSteps n t
    | .fault r => .fault r
    | .refused r => .refused r

/-- The pc before write `k` of a SEND, 0 ≤ k ≤ 145, and after the last write (10_state R28). -/
def pcBefore (k : Nat) : Phase × BitVec 6 :=
  if k = 0 then (.latchLow, 47)
  else if k = 145 then (.latchHigh, 0)
  else if 145 < k then (.idle, 0)
  else
    let i := BitVec.ofNat 6 (47 - (k - 1) / 3)
    if (k - 1) % 3 = 0 then (.clkLow, i) else if (k - 1) % 3 = 1 then (.data, i) else (.clkHigh, i)

/-- The storage of the chain after the first `m` bits of `f` entered it (70_reset_and_hazards R265). -/
def partialShift (old f : Frame) (m : Nat) : Frame := (old <<< m) ||| (f >>> (48 - m))

/-- How many SCLK rising edges the first `k` writes of a SEND make (10_state R28, 43_shift_bus R147). -/
def edgesAfter (k : Nat) : Nat := (k - 1) / 3

/-- The write that a phase names, where `bit` is the bit of the slot (10_state R25). -/
def phaseWrite (bit : Level) : Phase → Option (Pin × Level)
  | .idle => none
  | .latchLow => some (.lclk, false)
  | .clkLow => some (.sclk, false)
  | .data => some (.data, bit)
  | .clkHigh => some (.sclk, true)
  | .latchHigh => some (.lclk, true)

/-- The levels that the accepted DATA writes of a history carry, in order (43_shift_bus R151). -/
def dataLevels (es : List PinEvent) : List Level :=
  es.filterMap fun e => match e with | .written .data v => some v | _ => none

/-- The levels that the accepted LCLK writes of a history carry, in order (43_shift_bus R151). -/
def latchLevels (es : List PinEvent) : List Level :=
  es.filterMap fun e => match e with | .written .lclk v => some v | _ => none

/-- The levels that the accepted SCLK writes of a history carry, in order (43_shift_bus R151). -/
def clockLevels (es : List PinEvent) : List Level :=
  es.filterMap fun e => match e with | .written .sclk v => some v | _ => none

/-- A text every one of whose six characters is in SUPPORTED (42_serializer R127). -/
def allSupported (text : Frame) : Prop := ∀ i : Fin 6, supportedOf (lane text i) ≠ none

/-- What `raise Halt(cause)` leaves (60_exceptions R210, R211), field by field. -/
def haltedWith (cause : HaltCause) (s : State) : State :=
  { s with
    lvData := false
    lvSclk := false
    lvLclk := false
    events := s.events ++ [.written .data false, .written .sclk false, .written .lclk false]
    sqPhase := .idle
    halted := true
    haltCause := cause }

/-- The three entries of cleanup and of reset (60_exceptions R211, 70_reset_and_hazards R251). -/
def lowEvents : List PinEvent := [.written .data false, .written .sclk false, .written .lclk false]

end Sys2Proof.Machine
end

