-- ==== Sys2Proof/Certificates/Slice0/Obligations.lean ====
section
/-! DEFINITION. The statements for the provers. Each docstring names the rule of the spec it formalises, or the log entry
where a clause is the model's own choice. In all of them `s.sample` is the sample of the input ports that the step reads,
and `s.consume` is the state once it is read: that the samples stand in the state is the model's choice (log 1, log 2). -/

open Sys2Proof Sys2Proof.Machine

/-! ### The command word and the boundary -/

/-- 30_encoding R77: each value of the 3-bit field selects exactly one entry of the opcode map. -/
def Obligations.OpcodeMapSelectsOneEntry : Prop :=
  ∀ p : CommandPorts,
    (p.op = 0b001 → decode p = .ok (.encode p.charIn)) ∧
    (p.op = 0b010 → decode p = .ok (.serialize p.textIn p.lenIn)) ∧
    (p.op = 0b011 → decode p = .ok (.send p.frameIn p.widthIn)) ∧
    (p.op = 0b100 → decode p = .ok .shutdown) ∧
    (p.op = 0b000 ∨ p.op = 0b101 ∨ p.op = 0b110 ∨ p.op = 0b111 → decode p = .error (.reservedOpcode p.op))

/-- 30_encoding R73 to R75, R77, on words written out by hand. The clauses about `decodeTableWord` rest on the model's own
choice as well: a word in the low bits of its container, with every operand port 0 (log 11). -/
def Obligations.SampleWordsDecode : Prop :=
  decode { op := 0b001, charIn := 0x48 } = .ok (.encode 0x48) ∧
  decode { op := 0b010, textIn := 0x343820484650, lenIn := 6 } = .ok (.serialize 0x343820484650 6) ∧
  decode { op := 0b011, frameIn := 0x667F00767173, widthIn := 0b110000 } = .ok (.send 0x667F00767173 48) ∧
  decode { op := 0b100 } = .ok .shutdown ∧
  decodeTableWord 8 0x1 = some (.encode 0) ∧ decodeTableWord 8 0x2 = some (.serialize 0 0) ∧
  decodeTableWord 8 0x3 = some (.send 0 0) ∧ decodeTableWord 8 0x4 = some .shutdown ∧ decodeTableWord 8 0x5 = none

/-- The decoder reads back what the encoder writes, for every command (30_encoding R73 to R77). -/
def Obligations.DecodeReadsBackEncode : Prop := ∀ i : Instr, decode (encode i) = .ok i

/-- The assembler reads what the disassembler writes, and assembles it to the same command, for every command that the
syntax spells (30_encoding R82, R83). A text of fewer than six characters has 0x00 in the lanes beyond its length, as the
assembler fills them. The layout of the written text is the model's (log 14). -/
def Obligations.AssemblerReadsBackDisassembly : Prop :=
  ∀ (i : Instr) (line : List Char),
    writeInstr i = some line →
    (∀ text len, i = .serialize text len → ∀ l : Fin 6, len.toNat ≤ l.val → lane text l = 0) →
    ∃ c, readProgram (line ++ ['\n']) = .ok [c] ∧ ∀ out, assembleLine out c = .ok i

/-- 30_encoding R79: operands no port can express are refused, and a text length in 0..15 other than 6 is not: it is
presented and raises BAD_LENGTH. -/
def Obligations.BoundaryRefusesUnspellable : Prop :=
  (∀ out ch, 256 ≤ ch → assembleLine out (.encode ch) = .error .notSpelled) ∧
  (∀ out t, 15 < t.length ∨ (∃ ch ∈ t, 256 ≤ ch) → assembleLine out (.serialize t) = .error .notSpelled) ∧
  (∀ out v w, 2 ^ 48 ≤ v → assembleLine out (.send (.literal v) w) = .error .notSpelled) ∧
  (∀ out f w, w < 0 ∨ 64 ≤ w → assembleLine out (.send f w) = .error .notSpelled) ∧
  (∀ out t, t.length ≤ 15 → (∀ ch ∈ t, ch < 256) →
    ∃ text, assembleLine out (.serialize t) = .ok (.serialize text (BitVec.ofNat 4 t.length)) ∧
      (t.length ≠ 6 → ∀ s : State,
        exec (.serialize text (BitVec.ofNat 4 t.length)) s = .next (haltedWith .badLength s)))

/-! ### One step -/

/-- The accepting step runs the command the decoder reads, on the state once the step's sample is read (30_encoding R76,
70_reset_and_hazards R250). -/
def Obligations.StepRunsDecodedCommand : Prop :=
  ∀ (s : State) (i : Instr), s.accepts s.sample = true → decode s.sample.cmd = .ok i → step s = exec i s.consume

/-- A command word placed by withFetchWord runs in the very next step (log 3). -/
def Obligations.FetchWordRunsNext : Prop :=
  ∀ (s : State) (nbits w : Nat) (i : Instr), decodeTableWord nbits w = some i →
    step (s.withFetchWord nbits w) = exec i { s with inputs := s.inputs.tail, halted := false, sqPhase := .idle }

/-- 30_encoding R76: a command that a step does not accept has no effect. -/
def Obligations.UnacceptedCommandHasNoEffect : Prop :=
  ∀ s : State, s.accepts s.sample = false → step s = s.consume.react { s.sample with cmdValid := false }

/-- 30_encoding R76: the accepted command reads the operand ports it uses and no others. -/
def Obligations.UnusedOperandPortsIgnored : Prop :=
  ∀ p q : CommandPorts, p.op = q.op →
    (p.op = 0b001 → p.charIn = q.charIn) →
    (p.op = 0b010 → p.textIn = q.textIn ∧ p.lenIn = q.lenIn) →
    (p.op = 0b011 → p.frameIn = q.frameIn ∧ p.widthIn = q.widthIn) →
    ∀ s : State, s.accept p = s.accept q

/-- 30_encoding R80: a reserved opcode that is accepted halts with ILLEGAL_COMMAND and changes no other state. -/
def Obligations.ReservedOpcodeHalts : Prop :=
  ∀ s : State, s.accepts s.sample = true →
    s.sample.cmd.op = 0b000 ∨ s.sample.cmd.op = 0b101 ∨ s.sample.cmd.op = 0b110 ∨ s.sample.cmd.op = 0b111 →
    step s = .next (haltedWith .illegalCommand s.consume)

/-- 70_reset_and_hazards R251: reset sets every register of the block in one step, whatever the other inputs, and nothing
else leaves HALTED. -/
def Obligations.ResetSetsEveryRegister : Prop :=
  (∀ s : State, s.sample.rst = true →
    ∃ t, step s = .next t ∧ t.ready = true ∧ t.busy = false ∧
      t = { s.consume with
            code := 0x00, frame := 0x000000000000, sqFrame := 0x000000000000, sqIdx := 0, sqPhase := .idle
            lvData := false, lvSclk := false, lvLclk := false, halted := false, haltCause := .none
            events := s.events ++ [.written .data false, .written .sclk false, .written .lclk false] }) ∧
  (∀ s t : State, step s = .next t → s.halted = true → t.halted = false → s.sample.rst = true)

/-- While HALTED a step without `rst` changes nothing (60_exceptions R212, R223). -/
def Obligations.HaltedStepChangesNothing : Prop :=
  ∀ s : State, s.halted = true → s.sample.rst = false → step s = .next s.consume

/-- 60_exceptions R221: abort halts the block at once, busy or not. -/
def Obligations.AbortHaltsAtOnce : Prop :=
  ∀ s : State, s.sample.rst = false → s.halted = false → s.sample.abortReq = true →
    step s = .next (haltedWith .abort s.consume)

/-- A block that is not BUSY and not HALTED, with no command presented, makes no change (60_exceptions R229, R223). -/
def Obligations.IdleStepChangesNothing : Prop :=
  ∀ s : State, s.ready = true → s.sample.rst = false → s.sample.abortReq = false → s.sample.cmdValid = false →
    step s = .next s.consume

/-- While BUSY the command and its operands are not read: a later `frame_in` does not reach the send in progress
(70_reset_and_hazards R262, R263). -/
def Obligations.BusyStepIgnoresCommandPorts : Prop :=
  ∀ (s : State) (p : Inputs) (c : CommandPorts) (v : Bool), s.busy = true →
    s.react p = s.react { p with cmd := c, cmdValid := v }

/-- `pin_ok` is read by a sequencer step alone (30_encoding R78). -/
def Obligations.PinOkReadOnlyBySequencer : Prop :=
  ∀ (s : State) (p : Inputs) (ok : Bool), p.rst = true ∨ s.halted = true ∨ p.abortReq = true ∨ s.busy = false →
    s.react p = s.react { p with pinOk := ok }

/-! ### The encoder -/

/-- 41_encoder R100: the 14 supported characters and their codes. -/
def Obligations.SupportedCharacters : Prop :=
  ∀ (c : Byte) (g : Supported),
    supportedOf c = some g ↔
      (c, g) ∈ [((0x30 : Byte), Supported.d0), (0x31, .d1), (0x32, .d2), (0x33, .d3), (0x34, .d4), (0x35, .d5),
        (0x36, .d6), (0x37, .d7), (0x38, .d8), (0x39, .d9), (0x48, .letterH), (0x46, .letterF), (0x50, .letterP),
        (0x20, .space)]

/-- 41_encoder R106: the 14 codes of REF are those listed, pairwise distinct, none of them 0x80. -/
def Obligations.RefMeetsItsConstraints : Prop :=
  let chars : List Byte :=
    [0x30, 0x31, 0x32, 0x33, 0x34, 0x35, 0x36, 0x37, 0x38, 0x39, 0x48, 0x46, 0x50, 0x20]
  chars.map (encWith Config.ref) =
    [0x3F, 0x06, 0x5B, 0x4F, 0x66, 0x6D, 0x7D, 0x07, 0x7F, 0x6F, 0x76, 0x71, 0x73, 0x00] ∧
  (chars.map (encWith Config.ref)).Nodup ∧ (0x80 : Byte) ∉ chars.map (encWith Config.ref) ∧
  ∀ c, c ∉ chars → encWith Config.ref c = 0x80

/-- 41_encoder R109: two characters have the same code exactly when they are equal or both unsupported; every unsupported
byte has the one SENTINEL, so the encoder is not injective on all bytes. -/
def Obligations.EncoderInjectiveUpToSentinel : Prop :=
  (∀ c1 c2 : Byte, enc c1 = enc c2 ↔ c1 = c2 ∨ (supportedOf c1 = none ∧ supportedOf c2 = none)) ∧
  (∀ c : Byte, supportedOf c = none ↔ enc c = Config.segTable.sentinel) ∧
  ∃ c1 c2 : Byte, c1 ≠ c2 ∧ enc c1 = enc c2

/-- ENCODE completes in every state: the code of the character goes to CODE, and every other part of the state is as
before (41_encoder R107). -/
def Obligations.EncodeWritesCode : Prop :=
  ∀ (c : Byte) (s : State), exec (.encode c) s = .next { s with code := enc c }

/-! ### The serializer -/

/-- SERIALIZE of six characters completes in every state: their frame goes to FRAME, and every other part of the state is
as before (42_serializer R122, R126). -/
def Obligations.SerializeWritesFrame : Prop :=
  ∀ (text : Frame) (s : State), exec (.serialize text 6) s = .next { s with frame := ser text }

/-- 42_serializer R123: any other length writes no frame and halts with BAD_LENGTH. -/
def Obligations.SerializeBadLengthHalts : Prop :=
  ∀ (text : Frame) (len : BitVec 4) (s : State), len ≠ 6 →
    exec (.serialize text len) s = .next (haltedWith .badLength s)

/-- 42_serializer R124: lane i of FRAME is the code of character i. -/
def Obligations.SerializedLanesAreCodes : Prop :=
  ∀ (text : Frame) (s : State), ∃ t, exec (.serialize text 6) s = .next t ∧
    t.frame.extractLsb' 40 8 = enc (text.extractLsb' 40 8) ∧ t.frame.extractLsb' 0 8 = enc (text.extractLsb' 0 8) ∧
    ∀ i : Fin 6, lane t.frame i = enc (lane text i)

/-- The frame of a text as an unsigned integer (42_serializer R120). -/
def Obligations.FrameIsSumOfLanes : Prop :=
  ∀ text : Frame, (ser text).toNat = ∑ i : Fin 6, (enc (lane text i)).toNat * 2 ^ (8 * (5 - i.val))

/-- 42_serializer R127: on supported texts the serializer is injective; texts that differ only in unsupported characters
at the same positions give the same frame. -/
def Obligations.SerializerInjectiveOnSupported : Prop :=
  (∀ t1 t2 : Frame, allSupported t1 → allSupported t2 → ser t1 = ser t2 → t1 = t2) ∧
  (∀ t1 t2 : Frame,
    (∀ i : Fin 6, lane t1 i = lane t2 i ∨ (supportedOf (lane t1 i) = none ∧ supportedOf (lane t2 i) = none)) →
    ser t1 = ser t2)

/-! ### SEND, the sequencer and the chain -/

/-- 43_shift_bus R142: SEND with w = 48 captures the frame, starts the sequencer at (LATCH_LOW, 47) and is BUSY, and
changes nothing else; any other width halts; and a BUSY state, this one and every later one of the sequence, accepts no
command. -/
def Obligations.SendAcceptanceStartsSequencer : Prop :=
  (∀ (f : Frame) (w : BitVec 6) (s : State),
    (w = 48 → ∃ t, exec (.send f w) s = .next t ∧ t.busy = true ∧
      t = { s with sqFrame := f, sqPhase := .latchLow, sqIdx := 47 }) ∧
    (w ≠ 48 → exec (.send f w) s = .next (haltedWith .badWidth s))) ∧
  (∀ (s : State) (p : Inputs), s.busy = true → s.accepts p = false)

/-- 43_shift_bus R143: SEND with another width writes no pin of the send, keeps SQ_FRAME and the pc, and halts with
BAD_WIDTH. -/
def Obligations.SendBadWidthKeepsSequencer : Prop :=
  ∀ (f : Frame) (w : BitVec 6) (s : State), w ≠ 48 → s.busy = false →
    ∃ t, exec (.send f w) s = .next t ∧ t = haltedWith .badWidth s ∧ t.sqFrame = s.sqFrame ∧ t.pc = s.pc

/-- 43_shift_bus R144 to R148: the five transitions of the micro-program, with what the chain does, in the legal states. -/
def Obligations.SequencerTransitions : Prop :=
  ∀ s : State, s.Legal → s.halted = false → undisturbed s.sample = true →
    (s.sqPhase = .latchLow → s.sqIdx = 47 ∧
      step s = .next { s.consume with
        lvLclk := false, sqPhase := .clkLow, events := s.events ++ [.written .lclk false] }) ∧
    (s.sqPhase = .clkLow →
      step s = .next { s.consume with
        lvSclk := false, sqPhase := .data, events := s.events ++ [.written .sclk false] }) ∧
    (s.sqPhase = .data →
      step s = .next { s.consume with
        lvData := s.sqFrame.getLsbD s.sqIdx.toNat, sqPhase := .clkHigh
        events := s.events ++ [.written .data (s.sqFrame.getLsbD s.sqIdx.toNat)] }) ∧
    (s.sqPhase = .clkHigh → s.sqIdx ≠ 0 →
      step s = .next { s.consume with
        lvSclk := true, sqPhase := .clkLow, sqIdx := s.sqIdx - 1
        chSr := shiftIn s.chSr (s.sqFrame.getLsbD s.sqIdx.toNat), events := s.events ++ [.written .sclk true] }) ∧
    (s.sqPhase = .clkHigh → s.sqIdx = 0 →
      step s = .next { s.consume with
        lvSclk := true, sqPhase := .latchHigh
        chSr := shiftIn s.chSr (s.sqFrame.getLsbD s.sqIdx.toNat), events := s.events ++ [.written .sclk true] }) ∧
    (s.sqPhase = .latchHigh → s.sqIdx = 0 ∧
      step s = .next { s.consume with
        lvLclk := true, sqPhase := .idle, chOut := s.chSr, events := s.events ++ [.written .lclk true] })

/-- A rejected pin write (60_exceptions R213, 43_shift_bus R149): it is recorded as rejected, the pins are driven low, the
SEND is dropped, the block halts with PIN_WRITE_FAILED, and every other register keeps its value. Nothing is said of the
chain, whose contents are then free. -/
def Obligations.RejectedWriteHalts : Prop :=
  ∀ (s : State) (q : Pin) (v : Level), s.sample.rst = false → s.halted = false → s.sample.abortReq = false →
    s.sample.pinOk = false → s.sqIdx.toNat ≤ 47 →
    phaseWrite (s.sqFrame.getLsbD s.sqIdx.toNat) s.sqPhase = some (q, v) →
    ∃ t, step s = .next t ∧ t.code = s.code ∧ t.frame = s.frame ∧ t.sqFrame = s.sqFrame ∧ t.sqIdx = s.sqIdx ∧
      t.sqPhase = .idle ∧ t.lvData = false ∧ t.lvSclk = false ∧ t.lvLclk = false ∧ t.halted = true ∧
      t.haltCause = .pinWriteFailed ∧ t.inputs = s.consume.inputs ∧
      t.events = s.events ++ [.rejected q v, .written .data false, .written .sclk false, .written .lclk false]

/-- 43_shift_bus R150: an accepted SEND of f, whatever else its sample carries, whose 146 sequencer steps run undisturbed
writes exactly sendSeq(f, 48), leaves the lines and the pc as said, and leaves f in the chain whatever it held before.
Nothing else changes. -/
def Obligations.CompleteSendShowsFrame : Prop :=
  ∀ (s : State) (f : Frame) (p : Inputs) (ps rest : List Inputs),
    s.accepts p = true → decode p.cmd = .ok (.send f 48) → ps.length = 146 →
    (∀ q ∈ ps, undisturbed q = true) → s.inputs = p :: (ps ++ rest) →
    runSteps 147 s = .next { s with
      sqFrame := f, sqPhase := .idle, sqIdx := 0
      lvData := f.getLsbD 0, lvSclk := true, lvLclk := true
      chSr := f, chOut := f, events := s.events ++ sendSeq f 48, inputs := rest }

/-- A SEND that is part way (10_state R28, 70_reset_and_hazards R265, 43_shift_bus R140): after k of its 146 writes the pc
is the one of the table, the history holds exactly the first k writes of sendSeq(f, 48), the chain has taken in the bits of
the SCLK rising edges so far, and before the last write the display has not changed. -/
def Obligations.PartialSendProgress : Prop :=
  ∀ (s : State) (f : Frame) (p : Inputs) (ps rest : List Inputs),
    s.accepts p = true → decode p.cmd = .ok (.send f 48) → ps.length ≤ 146 →
    (∀ q ∈ ps, undisturbed q = true) → s.inputs = p :: (ps ++ rest) →
    ∃ t, runSteps (ps.length + 1) s = .next t ∧ t.pc = pcBefore ps.length ∧
      t.events = s.events ++ (sendSeq f 48).take ps.length ∧
      t.chSr = partialShift s.chSr f (edgesAfter ps.length) ∧ (ps.length ≤ 145 → t.chOut = s.chOut) ∧
      t.sqFrame = f ∧ t.code = s.code ∧ t.frame = s.frame ∧ t.halted = false ∧ t.haltCause = s.haltCause ∧
      t.inputs = rest ∧ t.draws = s.draws

/-- After a complete SEND of the frame of a text, each digit position shows the code of its character, and that lane is
held by register 5 - d of the chain (60_exceptions R237). -/
def Obligations.CompleteSendDisplaysText : Prop :=
  ∀ (s : State) (text : Frame) (p : Inputs) (ps rest : List Inputs),
    s.accepts p = true → decode p.cmd = .ok (.send (ser text) 48) → ps.length = 146 →
    (∀ q ∈ ps, undisturbed q = true) → s.inputs = p :: (ps ++ rest) →
    ∃ t, runSteps 147 s = .next t ∧
      ∀ d : Fin 6, t.digit d = enc (lane text d) ∧ t.digit d = chainRegister t.chOut (5 - d)

/-- The length of the send sequence (43_shift_bus R140). -/
def Obligations.SendSequenceLength : Prop := ∀ (f : Frame) (w : Nat), (sendSeq f w).length = 3 * w + 2

/-- What the send sequence carries (43_shift_bus R140, R151): one DATA write for each bit from the most significant down,
a low and a high write of SCLK for each, LCLK written low first and high last and never between. For w > 48 that the DATA
writes above bit 47 carry 0 is the model's choice (log 21), not the rule's. -/
def Obligations.SendSequenceCarriesBits : Prop :=
  ∀ (f : Frame) (w : Nat),
    dataLevels (sendSeq f w) = (List.range w).map (fun k => f.getLsbD (w - 1 - k)) ∧
    clockLevels (sendSeq f w) = (List.replicate w [false, true]).flatten ∧
    latchLevels (sendSeq f w) = [false, true] ∧
    (sendSeq f w).head? = some (.written .lclk false) ∧ (sendSeq f w).getLast? = some (.written .lclk true)

/-- After m shifts that carry the top m bits of f, most significant first, the storage of the chain is the old one shifted
by m with those bits below it; after 48 it is f (60_exceptions R233, R235, 70_reset_and_hazards R265). -/
def Obligations.ChainHoldsShiftedBits : Prop :=
  (∀ (sr f : Frame) (m : Nat), m ≤ 48 →
    (List.range m).foldl (fun r k => shiftIn r (f.getLsbD (47 - k))) sr = partialShift sr f m) ∧
  (∀ sr f : Frame, (List.range 48).foldl (fun r k => shiftIn r (f.getLsbD (47 - k))) sr = f)

/-- 60_exceptions R233, R234: a write that raises SCLK shifts the chain, taking LV_DATA in at stage 0; a write that raises
LCLK latches all 48 bits. -/
def Obligations.RisingEdgesMoveChain : Prop :=
  (∀ s : State, s.lvSclk = false →
    ∃ t, s.pinWrite .sclk true = t ∧ t.chOut = s.chOut ∧ t.lvData = s.lvData ∧ t.chSr.getLsbD 0 = s.lvData ∧
      ∀ k, k < 47 → t.chSr.getLsbD (k + 1) = s.chSr.getLsbD k) ∧
  (∀ s : State, s.lvLclk = false →
    ∃ t, s.pinWrite .lclk true = t ∧ t.chOut = s.chSr ∧ t.chSr = s.chSr)

/-- 60_exceptions R236 over the whole machine: the chain's storage changes only at a SCLK rising edge and its outputs only
at an LCLK rising edge, except where a write was rejected. -/
def Obligations.ChainChangesOnlyOnRisingEdges : Prop :=
  ∀ s t : State, step s = .next t →
    (s.busy = true ∧ s.sample.pinOk = false ∧ t.haltCause = .pinWriteFailed) ∨
    ((t.chSr = s.chSr ∨
        (s.sqPhase = .clkHigh ∧ s.lvSclk = false ∧ t.lvSclk = true ∧ t.chSr = shiftIn s.chSr s.lvData)) ∧
      (t.chOut = s.chOut ∨
        (s.sqPhase = .latchHigh ∧ s.lvLclk = false ∧ t.lvLclk = true ∧ t.chOut = s.chSr)))

/-- No step lets the block or the host see the chain: two states that agree on all but the chain step to states that agree
on all but the chain (10_state R35, 60_exceptions R239). -/
def Obligations.ChainInvisibleToBlock : Prop :=
  ∀ s1 s2 t1 : State, s1.blockView = s2.blockView → step s1 = .next t1 →
    ∃ t2, step s2 = .next t2 ∧ t1.blockView = t2.blockView

/-! ### SHUTDOWN, the halt and the whole machine -/

/-- SHUTDOWN completes in every state: the lines go low, the block halts with SHUTDOWN, and every other part of the state
is as before (44_system R180). -/
def Obligations.ShutdownHalts : Prop := ∀ s : State, exec .shutdown s = .next (haltedWith .shutdown s)

/-- 10_state R32, 30_encoding R71: the layout of STATUS, its value at reset, the codes of HALT_CAUSE that STATUS and
`halt_cause` show (those of the table of 60_exceptions R201), and what drives each output port. -/
def Obligations.StatusWordLayout : Prop :=
  (∀ s : State,
    s.status.getLsbD 0 = s.busy ∧ s.status.getLsbD 1 = s.halted ∧ s.status.extractLsb' 2 3 = s.haltCause.toBits ∧
    s.status.getLsbD 5 = s.lvData ∧ s.status.getLsbD 6 = s.lvSclk ∧ s.status.getLsbD 7 = s.lvLclk) ∧
  State.reset.status = 0x00 ∧
  (HaltCause.none.toBits = 0 ∧ HaltCause.illegalCommand.toBits = 1 ∧ HaltCause.badLength.toBits = 2 ∧
    HaltCause.badWidth.toBits = 3 ∧ HaltCause.pinWriteFailed.toBits = 4 ∧ HaltCause.abort.toBits = 5 ∧
    HaltCause.shutdown.toBits = 6) ∧
  (∀ s : State,
    s.outputs.data = s.lvData ∧ s.outputs.sclk = s.lvSclk ∧ s.outputs.lclk = s.lvLclk ∧
    s.outputs.codeOut = s.code ∧ s.outputs.frameOut = s.frame ∧
    s.outputs.busy = decide (s.sqPhase ≠ .idle) ∧ s.outputs.ready = (decide (s.sqPhase = .idle) && !s.halted) ∧
    s.outputs.halted = s.halted ∧ s.outputs.haltCause = s.haltCause.toBits ∧ s.outputs.statusOut = s.status)

/-- The state after reset (70_reset_and_hazards R251, 10_state R20): the values the spec gives. Nothing is said of the
chain, whose contents are free. -/
def Obligations.ResetStateIsReady : Prop :=
  State.reset.code = 0 ∧ State.reset.frame = 0 ∧ State.reset.sqFrame = 0 ∧ State.reset.sqIdx = 0 ∧
  State.reset.sqPhase = .idle ∧ State.reset.lvData = false ∧ State.reset.lvSclk = false ∧
  State.reset.lvLclk = false ∧ State.reset.halted = false ∧ State.reset.haltCause = .none ∧
  State.reset.ready = true ∧ State.reset.busy = false ∧
  State.reset.events = [.written .data false, .written .sclk false, .written .lclk false]

/-- The state after reset is legal. -/
def Obligations.ResetStateIsLegal : Prop := State.reset.Legal

/-- Every step keeps the legal states (10_state R24, R28, R30, R31, 43_shift_bus R152). -/
def Obligations.StepKeepsLegal : Prop := ∀ s t : State, s.Legal → step s = .next t → t.Legal

/-- From a legal state every step answers a next state. That the fault exists at all is the model's (log 7). -/
def Obligations.LegalStateNeverStops : Prop := ∀ s : State, s.Legal → ∃ t, step s = .next t

/-- No step refuses. -/
def Obligations.StepNeverRefuses : Prop := ∀ (s : State) (r : Refusal), step s ≠ .refused r

/-- Only ENCODE writes CODE, but for reset (10_state R21). -/
def Obligations.OnlyEncodeWritesCode : Prop :=
  ∀ s t : State, step s = .next t → t.code ≠ s.code →
    (s.sample.rst = true ∧ t.code = 0) ∨
    (s.accepts s.sample = true ∧ ∃ c, decode s.sample.cmd = .ok (.encode c) ∧ t.code = enc c)

/-- Only a successful SERIALIZE writes FRAME, but for reset (10_state R22). -/
def Obligations.OnlySerializeWritesFrame : Prop :=
  ∀ s t : State, step s = .next t → t.frame ≠ s.frame →
    (s.sample.rst = true ∧ t.frame = 0) ∨
    (s.accepts s.sample = true ∧ ∃ text, decode s.sample.cmd = .ok (.serialize text 6) ∧ t.frame = ser text)

/-- Only an accepted SEND writes SQ_FRAME, but for reset, and never while BUSY (10_state R23). -/
def Obligations.OnlySendWritesSqFrame : Prop :=
  ∀ s t : State, step s = .next t → t.sqFrame ≠ s.sqFrame →
    (s.sample.rst = true ∧ t.sqFrame = 0) ∨
    (s.accepts s.sample = true ∧ s.busy = false ∧
      ∃ f, decode s.sample.cmd = .ok (.send f 48) ∧ t.sqFrame = f ∧ t.pc = (.latchLow, 47))

/-- Only the halt that sets HALTED from 0 writes HALT_CAUSE, but for reset, so the first cause is kept (10_state R31). -/
def Obligations.HaltCauseKeptUntilReset : Prop :=
  ∀ s t : State, step s = .next t → t.haltCause ≠ s.haltCause →
    (s.sample.rst = true ∧ t.haltCause = .none) ∨
    (s.halted = false ∧ t.halted = true ∧ t.haltCause ≠ .none ∧ t.lvData = false ∧ t.lvSclk = false ∧ t.lvLclk = false)

/-- A step only appends to the pin event history, and at most four entries (20_memory R56, 60_exceptions R211, R213). -/
def Obligations.HistoryOnlyGrows : Prop :=
  ∀ s t : State, step s = .next t → ∃ new, t.events = s.events ++ new ∧ new.length ≤ 4

/-! ### The host -/

/-- The host keeps its duty (30_encoding R76, 44_system R186): a command it has presented and no step has accepted stands
on the ports in the next step too, with the same opcode and operands, whatever the host and the environment choose. In a
step with a further reset that is the model's reading (log 15: DEDUCED for the operands, DESIGN CHOICE for the list). -/
def Obligations.HostHoldsCommandUnchanged : Prop :=
  ∀ (h h' : HostRun) (ch ch' : HostChoice) (p : Inputs), h.sample ch = .ok p → p.cmdValid = true →
    h.state.accepts p = false → h.step ch = .next h' →
    h'.pending = h.pending ∧ ∃ q, h'.sample ch' = .ok q ∧ q.cmdValid = true ∧ q.cmd = p.cmd

/-- The host presents its commands in order, from the first step after reset (44_system R184). The first step after reset
presents the first command, whatever it is and whatever else is chosen. A command on the ports is the held one, or, where
none is held, the first pending one with FRAME as it stands. A held command is the first pending one: so from reset, and
kept by every step. And a step takes the first command off the list exactly when it accepts the command on the ports. That
the list and the held command go on unchanged through a step with a further reset (the last two clauses, where rst = 1) is
the model's choice and not R184's: log 15, DESIGN CHOICE. -/
def Obligations.HostPresentsInOrderFromReset : Prop :=
  (∀ (x : Presentation) (xs : List Presentation) (ch : HostChoice) (c : CommandPorts),
    portsOf State.reset.frame x = .ok c →
    ∃ p, (startHost (x :: xs)).sample ch = .ok p ∧ p.cmdValid = true ∧ p.cmd = c) ∧
  (∀ (h : HostRun) (ch : HostChoice) (p : Inputs), h.sample ch = .ok p → p.cmdValid = true →
    h.held = some p.cmd ∨
      (h.held = none ∧ ∃ x xs, h.pending = x :: xs ∧ portsOf h.state.frame x = .ok p.cmd)) ∧
  (∀ ps : List Presentation, (startHost ps).HoldsFirst) ∧
  (∀ (h h' : HostRun) (ch : HostChoice), h.HoldsFirst → h.step ch = .next h' → h'.HoldsFirst) ∧
  (∀ (h h' : HostRun) (ch : HostChoice), h.step ch = .next h' →
    ∃ p, h.sample ch = .ok p ∧
      ((h.state.accepts p = true ∧ h'.pending = h.pending.tail ∧ h'.held = none) ∨
        (h.state.accepts p = false ∧ h'.pending = h.pending)))
end

