-- ==== Sys2Proof/Laws/State.lean ====
section
/-! SUPPORT. What each named operation leaves in each field of the state, one lemma per field per update. -/

namespace Sys2Proof.Machine

open Sys2Proof

@[simp] theorem rises_false (b : Level) : rises b false = false := by cases b <;> rfl

@[simp] theorem rises_false_true : rises false true = true := rfl

@[simp] theorem rises_true (b : Level) : rises true b = false := rfl

@[simp] theorem State.drive_inputs (p : Inputs) (s : State) : (s.drive p).inputs = p :: s.inputs := rfl

@[simp] theorem State.drive_code (p : Inputs) (s : State) : (s.drive p).code = s.code := rfl
@[simp] theorem State.drive_frame (p : Inputs) (s : State) : (s.drive p).frame = s.frame := rfl
@[simp] theorem State.drive_sqFrame (p : Inputs) (s : State) : (s.drive p).sqFrame = s.sqFrame := rfl
@[simp] theorem State.drive_sqIdx (p : Inputs) (s : State) : (s.drive p).sqIdx = s.sqIdx := rfl
@[simp] theorem State.drive_sqPhase (p : Inputs) (s : State) : (s.drive p).sqPhase = s.sqPhase := rfl
@[simp] theorem State.drive_lvData (p : Inputs) (s : State) : (s.drive p).lvData = s.lvData := rfl
@[simp] theorem State.drive_lvSclk (p : Inputs) (s : State) : (s.drive p).lvSclk = s.lvSclk := rfl
@[simp] theorem State.drive_lvLclk (p : Inputs) (s : State) : (s.drive p).lvLclk = s.lvLclk := rfl
@[simp] theorem State.drive_halted (p : Inputs) (s : State) : (s.drive p).halted = s.halted := rfl
@[simp] theorem State.drive_haltCause (p : Inputs) (s : State) : (s.drive p).haltCause = s.haltCause := rfl
@[simp] theorem State.drive_chSr (p : Inputs) (s : State) : (s.drive p).chSr = s.chSr := rfl
@[simp] theorem State.drive_chOut (p : Inputs) (s : State) : (s.drive p).chOut = s.chOut := rfl
@[simp] theorem State.drive_events (p : Inputs) (s : State) : (s.drive p).events = s.events := rfl
@[simp] theorem State.drive_draws (p : Inputs) (s : State) : (s.drive p).draws = s.draws := rfl

@[simp] theorem State.consume_code (s : State) : (s.consume).code = s.code := by unfold State.consume; split <;> rfl
@[simp] theorem State.consume_frame (s : State) : (s.consume).frame = s.frame := by unfold State.consume; split <;> rfl
@[simp] theorem State.consume_sqFrame (s : State) : (s.consume).sqFrame = s.sqFrame := by unfold State.consume; split <;> rfl
@[simp] theorem State.consume_sqIdx (s : State) : (s.consume).sqIdx = s.sqIdx := by unfold State.consume; split <;> rfl
@[simp] theorem State.consume_sqPhase (s : State) : (s.consume).sqPhase = s.sqPhase := by unfold State.consume; split <;> rfl
@[simp] theorem State.consume_lvData (s : State) : (s.consume).lvData = s.lvData := by unfold State.consume; split <;> rfl
@[simp] theorem State.consume_lvSclk (s : State) : (s.consume).lvSclk = s.lvSclk := by unfold State.consume; split <;> rfl
@[simp] theorem State.consume_lvLclk (s : State) : (s.consume).lvLclk = s.lvLclk := by unfold State.consume; split <;> rfl
@[simp] theorem State.consume_halted (s : State) : (s.consume).halted = s.halted := by unfold State.consume; split <;> rfl
@[simp] theorem State.consume_haltCause (s : State) : (s.consume).haltCause = s.haltCause := by unfold State.consume; split <;> rfl
@[simp] theorem State.consume_chSr (s : State) : (s.consume).chSr = s.chSr := by unfold State.consume; split <;> rfl
@[simp] theorem State.consume_chOut (s : State) : (s.consume).chOut = s.chOut := by unfold State.consume; split <;> rfl
@[simp] theorem State.consume_events (s : State) : (s.consume).events = s.events := by unfold State.consume; split <;> rfl

@[simp] theorem State.sample_drive (p : Inputs) (s : State) : (s.drive p).sample = p := rfl

@[simp] theorem State.consume_drive (p : Inputs) (s : State) : (s.drive p).consume = s := rfl

@[simp] theorem State.record_events (e : PinEvent) (s : State) : (s.record e).events = s.events ++ [e] := rfl

@[simp] theorem State.record_code (e : PinEvent) (s : State) : (s.record e).code = s.code := rfl
@[simp] theorem State.record_frame (e : PinEvent) (s : State) : (s.record e).frame = s.frame := rfl
@[simp] theorem State.record_sqFrame (e : PinEvent) (s : State) : (s.record e).sqFrame = s.sqFrame := rfl
@[simp] theorem State.record_sqIdx (e : PinEvent) (s : State) : (s.record e).sqIdx = s.sqIdx := rfl
@[simp] theorem State.record_sqPhase (e : PinEvent) (s : State) : (s.record e).sqPhase = s.sqPhase := rfl
@[simp] theorem State.record_lvData (e : PinEvent) (s : State) : (s.record e).lvData = s.lvData := rfl
@[simp] theorem State.record_lvSclk (e : PinEvent) (s : State) : (s.record e).lvSclk = s.lvSclk := rfl
@[simp] theorem State.record_lvLclk (e : PinEvent) (s : State) : (s.record e).lvLclk = s.lvLclk := rfl
@[simp] theorem State.record_halted (e : PinEvent) (s : State) : (s.record e).halted = s.halted := rfl
@[simp] theorem State.record_haltCause (e : PinEvent) (s : State) : (s.record e).haltCause = s.haltCause := rfl
@[simp] theorem State.record_chSr (e : PinEvent) (s : State) : (s.record e).chSr = s.chSr := rfl
@[simp] theorem State.record_chOut (e : PinEvent) (s : State) : (s.record e).chOut = s.chOut := rfl
@[simp] theorem State.record_inputs (e : PinEvent) (s : State) : (s.record e).inputs = s.inputs := rfl
@[simp] theorem State.record_draws (e : PinEvent) (s : State) : (s.record e).draws = s.draws := rfl

@[simp] theorem State.pinWrite_events (p : Pin) (v : Level) (s : State) : (s.pinWrite p v).events = s.events ++ [.written p v] := by cases p <;> rfl

@[simp] theorem State.pinWrite_code (p : Pin) (v : Level) (s : State) : (s.pinWrite p v).code = s.code := by cases p <;> rfl
@[simp] theorem State.pinWrite_frame (p : Pin) (v : Level) (s : State) : (s.pinWrite p v).frame = s.frame := by cases p <;> rfl
@[simp] theorem State.pinWrite_sqFrame (p : Pin) (v : Level) (s : State) : (s.pinWrite p v).sqFrame = s.sqFrame := by cases p <;> rfl
@[simp] theorem State.pinWrite_sqIdx (p : Pin) (v : Level) (s : State) : (s.pinWrite p v).sqIdx = s.sqIdx := by cases p <;> rfl
@[simp] theorem State.pinWrite_sqPhase (p : Pin) (v : Level) (s : State) : (s.pinWrite p v).sqPhase = s.sqPhase := by cases p <;> rfl
@[simp] theorem State.pinWrite_halted (p : Pin) (v : Level) (s : State) : (s.pinWrite p v).halted = s.halted := by cases p <;> rfl
@[simp] theorem State.pinWrite_haltCause (p : Pin) (v : Level) (s : State) : (s.pinWrite p v).haltCause = s.haltCause := by cases p <;> rfl
@[simp] theorem State.pinWrite_inputs (p : Pin) (v : Level) (s : State) : (s.pinWrite p v).inputs = s.inputs := by cases p <;> rfl
@[simp] theorem State.pinWrite_draws (p : Pin) (v : Level) (s : State) : (s.pinWrite p v).draws = s.draws := by cases p <;> rfl

@[simp] theorem State.pinWrite_data_lvData (v : Level) (s : State) : (s.pinWrite .data v).lvData = v := rfl
@[simp] theorem State.pinWrite_data_lvSclk (v : Level) (s : State) : (s.pinWrite .data v).lvSclk = s.lvSclk := rfl
@[simp] theorem State.pinWrite_data_lvLclk (v : Level) (s : State) : (s.pinWrite .data v).lvLclk = s.lvLclk := rfl
@[simp] theorem State.pinWrite_sclk_lvData (v : Level) (s : State) : (s.pinWrite .sclk v).lvData = s.lvData := rfl
@[simp] theorem State.pinWrite_sclk_lvSclk (v : Level) (s : State) : (s.pinWrite .sclk v).lvSclk = v := rfl
@[simp] theorem State.pinWrite_sclk_lvLclk (v : Level) (s : State) : (s.pinWrite .sclk v).lvLclk = s.lvLclk := rfl
@[simp] theorem State.pinWrite_lclk_lvData (v : Level) (s : State) : (s.pinWrite .lclk v).lvData = s.lvData := rfl
@[simp] theorem State.pinWrite_lclk_lvSclk (v : Level) (s : State) : (s.pinWrite .lclk v).lvSclk = s.lvSclk := rfl
@[simp] theorem State.pinWrite_lclk_lvLclk (v : Level) (s : State) : (s.pinWrite .lclk v).lvLclk = v := rfl

@[simp] theorem State.pinWrite_data_chSr (v : Level) (s : State) : (s.pinWrite .data v).chSr = s.chSr := rfl
@[simp] theorem State.pinWrite_lclk_chSr (v : Level) (s : State) : (s.pinWrite .lclk v).chSr = s.chSr := rfl
@[simp] theorem State.pinWrite_sclk_chSr (v : Level) (s : State) :
    (s.pinWrite .sclk v).chSr = if rises s.lvSclk v then shiftIn s.chSr s.lvData else s.chSr := rfl
@[simp] theorem State.pinWrite_data_chOut (v : Level) (s : State) : (s.pinWrite .data v).chOut = s.chOut := rfl
@[simp] theorem State.pinWrite_sclk_chOut (v : Level) (s : State) : (s.pinWrite .sclk v).chOut = s.chOut := rfl
@[simp] theorem State.pinWrite_lclk_chOut (v : Level) (s : State) :
    (s.pinWrite .lclk v).chOut = if rises s.lvLclk v then s.chSr else s.chOut := rfl

@[simp] theorem State.cleanup_lvData (s : State) : (s.cleanup).lvData = false := by simp [State.cleanup]
@[simp] theorem State.cleanup_lvSclk (s : State) : (s.cleanup).lvSclk = false := by simp [State.cleanup]
@[simp] theorem State.cleanup_lvLclk (s : State) : (s.cleanup).lvLclk = false := by simp [State.cleanup]

@[simp] theorem State.cleanup_events (s : State) : (s.cleanup).events = 
    s.events ++ [.written .data false, .written .sclk false, .written .lclk false] := by simp [State.cleanup]
@[simp] theorem State.cleanup_chSr (s : State) : (s.cleanup).chSr = s.chSr := by simp [State.cleanup]
@[simp] theorem State.cleanup_chOut (s : State) : (s.cleanup).chOut = s.chOut := by simp [State.cleanup]

@[simp] theorem State.cleanup_code (s : State) : (s.cleanup).code = s.code := by simp [State.cleanup]
@[simp] theorem State.cleanup_frame (s : State) : (s.cleanup).frame = s.frame := by simp [State.cleanup]
@[simp] theorem State.cleanup_sqFrame (s : State) : (s.cleanup).sqFrame = s.sqFrame := by simp [State.cleanup]
@[simp] theorem State.cleanup_sqIdx (s : State) : (s.cleanup).sqIdx = s.sqIdx := by simp [State.cleanup]
@[simp] theorem State.cleanup_sqPhase (s : State) : (s.cleanup).sqPhase = s.sqPhase := by simp [State.cleanup]
@[simp] theorem State.cleanup_halted (s : State) : (s.cleanup).halted = s.halted := by simp [State.cleanup]
@[simp] theorem State.cleanup_haltCause (s : State) : (s.cleanup).haltCause = s.haltCause := by simp [State.cleanup]
@[simp] theorem State.cleanup_inputs (s : State) : (s.cleanup).inputs = s.inputs := by simp [State.cleanup]
@[simp] theorem State.cleanup_draws (s : State) : (s.cleanup).draws = s.draws := by simp [State.cleanup]

@[simp] theorem State.raiseHalt_sqPhase (c : HaltCause) (s : State) : (s.raiseHalt c).sqPhase = .idle := by simp [State.raiseHalt]
@[simp] theorem State.raiseHalt_halted (c : HaltCause) (s : State) : (s.raiseHalt c).halted = true := by simp [State.raiseHalt]
@[simp] theorem State.raiseHalt_haltCause (c : HaltCause) (s : State) : (s.raiseHalt c).haltCause = c := by simp [State.raiseHalt]
@[simp] theorem State.raiseHalt_lvData (c : HaltCause) (s : State) : (s.raiseHalt c).lvData = false := by simp [State.raiseHalt]
@[simp] theorem State.raiseHalt_lvSclk (c : HaltCause) (s : State) : (s.raiseHalt c).lvSclk = false := by simp [State.raiseHalt]
@[simp] theorem State.raiseHalt_lvLclk (c : HaltCause) (s : State) : (s.raiseHalt c).lvLclk = false := by simp [State.raiseHalt]

@[simp] theorem State.raiseHalt_events (c : HaltCause) (s : State) : (s.raiseHalt c).events = 
    s.events ++ [.written .data false, .written .sclk false, .written .lclk false] := by simp [State.raiseHalt]
@[simp] theorem State.raiseHalt_chSr (c : HaltCause) (s : State) : (s.raiseHalt c).chSr = s.chSr := by simp [State.raiseHalt]
@[simp] theorem State.raiseHalt_chOut (c : HaltCause) (s : State) : (s.raiseHalt c).chOut = s.chOut := by simp [State.raiseHalt]

@[simp] theorem State.raiseHalt_code (c : HaltCause) (s : State) : (s.raiseHalt c).code = s.code := by simp [State.raiseHalt]
@[simp] theorem State.raiseHalt_frame (c : HaltCause) (s : State) : (s.raiseHalt c).frame = s.frame := by simp [State.raiseHalt]
@[simp] theorem State.raiseHalt_sqFrame (c : HaltCause) (s : State) : (s.raiseHalt c).sqFrame = s.sqFrame := by simp [State.raiseHalt]
@[simp] theorem State.raiseHalt_sqIdx (c : HaltCause) (s : State) : (s.raiseHalt c).sqIdx = s.sqIdx := by simp [State.raiseHalt]
@[simp] theorem State.raiseHalt_inputs (c : HaltCause) (s : State) : (s.raiseHalt c).inputs = s.inputs := by simp [State.raiseHalt]
@[simp] theorem State.raiseHalt_draws (c : HaltCause) (s : State) : (s.raiseHalt c).draws = s.draws := by simp [State.raiseHalt]

@[simp] theorem State.resetBlock_code (s : State) : (s.resetBlock).code = 0 := by simp [State.resetBlock]
@[simp] theorem State.resetBlock_frame (s : State) : (s.resetBlock).frame = 0 := by simp [State.resetBlock]
@[simp] theorem State.resetBlock_sqFrame (s : State) : (s.resetBlock).sqFrame = 0 := by simp [State.resetBlock]
@[simp] theorem State.resetBlock_sqIdx (s : State) : (s.resetBlock).sqIdx = 0 := by simp [State.resetBlock]
@[simp] theorem State.resetBlock_sqPhase (s : State) : (s.resetBlock).sqPhase = .idle := by simp [State.resetBlock]
@[simp] theorem State.resetBlock_halted (s : State) : (s.resetBlock).halted = false := by simp [State.resetBlock]
@[simp] theorem State.resetBlock_haltCause (s : State) : (s.resetBlock).haltCause = .none := by simp [State.resetBlock]
@[simp] theorem State.resetBlock_lvData (s : State) : (s.resetBlock).lvData = false := by simp [State.resetBlock]
@[simp] theorem State.resetBlock_lvSclk (s : State) : (s.resetBlock).lvSclk = false := by simp [State.resetBlock]
@[simp] theorem State.resetBlock_lvLclk (s : State) : (s.resetBlock).lvLclk = false := by simp [State.resetBlock]

@[simp] theorem State.resetBlock_events (s : State) : (s.resetBlock).events = 
    s.events ++ [.written .data false, .written .sclk false, .written .lclk false] := by simp [State.resetBlock]
@[simp] theorem State.resetBlock_chSr (s : State) : (s.resetBlock).chSr = s.chSr := by simp [State.resetBlock]
@[simp] theorem State.resetBlock_chOut (s : State) : (s.resetBlock).chOut = s.chOut := by simp [State.resetBlock]

@[simp] theorem State.resetBlock_inputs (s : State) : (s.resetBlock).inputs = s.inputs := by simp [State.resetBlock]
@[simp] theorem State.resetBlock_draws (s : State) : (s.resetBlock).draws = s.draws := by simp [State.resetBlock]

@[simp] theorem State.loseChain_chSr (s : State) : (s.loseChain).chSr = Config.rejectedShift s.draws := rfl
@[simp] theorem State.loseChain_chOut (s : State) : (s.loseChain).chOut = Config.rejectedLatch s.draws := rfl
@[simp] theorem State.loseChain_draws (s : State) : (s.loseChain).draws = s.draws + 1 := rfl

@[simp] theorem State.loseChain_code (s : State) : (s.loseChain).code = s.code := rfl
@[simp] theorem State.loseChain_frame (s : State) : (s.loseChain).frame = s.frame := rfl
@[simp] theorem State.loseChain_sqFrame (s : State) : (s.loseChain).sqFrame = s.sqFrame := rfl
@[simp] theorem State.loseChain_sqIdx (s : State) : (s.loseChain).sqIdx = s.sqIdx := rfl
@[simp] theorem State.loseChain_sqPhase (s : State) : (s.loseChain).sqPhase = s.sqPhase := rfl
@[simp] theorem State.loseChain_lvData (s : State) : (s.loseChain).lvData = s.lvData := rfl
@[simp] theorem State.loseChain_lvSclk (s : State) : (s.loseChain).lvSclk = s.lvSclk := rfl
@[simp] theorem State.loseChain_lvLclk (s : State) : (s.loseChain).lvLclk = s.lvLclk := rfl
@[simp] theorem State.loseChain_halted (s : State) : (s.loseChain).halted = s.halted := rfl
@[simp] theorem State.loseChain_haltCause (s : State) : (s.loseChain).haltCause = s.haltCause := rfl
@[simp] theorem State.loseChain_events (s : State) : (s.loseChain).events = s.events := rfl
@[simp] theorem State.loseChain_inputs (s : State) : (s.loseChain).inputs = s.inputs := rfl

@[simp] theorem State.rejectWrite_sqPhase (p : Pin) (v : Level) (s : State) : (s.rejectWrite p v).sqPhase = .idle := by simp [State.rejectWrite]
@[simp] theorem State.rejectWrite_halted (p : Pin) (v : Level) (s : State) : (s.rejectWrite p v).halted = true := by simp [State.rejectWrite]
@[simp] theorem State.rejectWrite_haltCause (p : Pin) (v : Level) (s : State) : (s.rejectWrite p v).haltCause = .pinWriteFailed := by simp [State.rejectWrite]
@[simp] theorem State.rejectWrite_lvData (p : Pin) (v : Level) (s : State) : (s.rejectWrite p v).lvData = false := by simp [State.rejectWrite]
@[simp] theorem State.rejectWrite_lvSclk (p : Pin) (v : Level) (s : State) : (s.rejectWrite p v).lvSclk = false := by simp [State.rejectWrite]
@[simp] theorem State.rejectWrite_lvLclk (p : Pin) (v : Level) (s : State) : (s.rejectWrite p v).lvLclk = false := by simp [State.rejectWrite]
@[simp] theorem State.rejectWrite_draws (p : Pin) (v : Level) (s : State) : (s.rejectWrite p v).draws = s.draws + 1 := by simp [State.rejectWrite]

@[simp] theorem State.rejectWrite_events (p : Pin) (v : Level) (s : State) : (s.rejectWrite p v).events = 
    s.events ++ .rejected p v :: [.written .data false, .written .sclk false, .written .lclk false] := by simp [State.rejectWrite]
@[simp] theorem State.rejectWrite_chSr (p : Pin) (v : Level) (s : State) : (s.rejectWrite p v).chSr = Config.rejectedShift s.draws := by simp [State.rejectWrite]
@[simp] theorem State.rejectWrite_chOut (p : Pin) (v : Level) (s : State) : (s.rejectWrite p v).chOut = Config.rejectedLatch s.draws := by simp [State.rejectWrite]

@[simp] theorem State.rejectWrite_code (p : Pin) (v : Level) (s : State) : (s.rejectWrite p v).code = s.code := by simp [State.rejectWrite]
@[simp] theorem State.rejectWrite_frame (p : Pin) (v : Level) (s : State) : (s.rejectWrite p v).frame = s.frame := by simp [State.rejectWrite]
@[simp] theorem State.rejectWrite_sqFrame (p : Pin) (v : Level) (s : State) : (s.rejectWrite p v).sqFrame = s.sqFrame := by simp [State.rejectWrite]
@[simp] theorem State.rejectWrite_sqIdx (p : Pin) (v : Level) (s : State) : (s.rejectWrite p v).sqIdx = s.sqIdx := by simp [State.rejectWrite]
@[simp] theorem State.rejectWrite_inputs (p : Pin) (v : Level) (s : State) : (s.rejectWrite p v).inputs = s.inputs := by simp [State.rejectWrite]

@[simp] theorem State.advancePc_code (s : State) : (s.advancePc).code = s.code := by unfold State.advancePc; split <;> (try split) <;> rfl
@[simp] theorem State.advancePc_frame (s : State) : (s.advancePc).frame = s.frame := by unfold State.advancePc; split <;> (try split) <;> rfl
@[simp] theorem State.advancePc_sqFrame (s : State) : (s.advancePc).sqFrame = s.sqFrame := by unfold State.advancePc; split <;> (try split) <;> rfl
@[simp] theorem State.advancePc_lvData (s : State) : (s.advancePc).lvData = s.lvData := by unfold State.advancePc; split <;> (try split) <;> rfl
@[simp] theorem State.advancePc_lvSclk (s : State) : (s.advancePc).lvSclk = s.lvSclk := by unfold State.advancePc; split <;> (try split) <;> rfl
@[simp] theorem State.advancePc_lvLclk (s : State) : (s.advancePc).lvLclk = s.lvLclk := by unfold State.advancePc; split <;> (try split) <;> rfl
@[simp] theorem State.advancePc_halted (s : State) : (s.advancePc).halted = s.halted := by unfold State.advancePc; split <;> (try split) <;> rfl
@[simp] theorem State.advancePc_haltCause (s : State) : (s.advancePc).haltCause = s.haltCause := by unfold State.advancePc; split <;> (try split) <;> rfl
@[simp] theorem State.advancePc_chSr (s : State) : (s.advancePc).chSr = s.chSr := by unfold State.advancePc; split <;> (try split) <;> rfl
@[simp] theorem State.advancePc_chOut (s : State) : (s.advancePc).chOut = s.chOut := by unfold State.advancePc; split <;> (try split) <;> rfl
@[simp] theorem State.advancePc_events (s : State) : (s.advancePc).events = s.events := by unfold State.advancePc; split <;> (try split) <;> rfl
@[simp] theorem State.advancePc_inputs (s : State) : (s.advancePc).inputs = s.inputs := by unfold State.advancePc; split <;> (try split) <;> rfl
@[simp] theorem State.advancePc_draws (s : State) : (s.advancePc).draws = s.draws := by unfold State.advancePc; split <;> (try split) <;> rfl

end Sys2Proof.Machine
end

