-- ==== Sys2Proof/Laws/Ops.lean ====
section
/-! SUPPORT. One lemma for each shared operation that says all it does. -/

namespace Sys2Proof.Machine

open Sys2Proof

/-- Two states with the same fields are the same. -/
theorem State.ext_fields {s t : State} (h1 : s.code = t.code) (h2 : s.frame = t.frame) (h3 : s.sqFrame = t.sqFrame)
    (h4 : s.sqIdx = t.sqIdx) (h5 : s.sqPhase = t.sqPhase) (h6 : s.lvData = t.lvData) (h7 : s.lvSclk = t.lvSclk)
    (h8 : s.lvLclk = t.lvLclk) (h9 : s.halted = t.halted) (h10 : s.haltCause = t.haltCause) (h11 : s.chSr = t.chSr)
    (h12 : s.chOut = t.chOut) (h13 : s.events = t.events) (h14 : s.inputs = t.inputs) (h15 : s.draws = t.draws) :
    s = t := by
  cases s; cases t; simp_all

theorem State.cleanup_eq (s : State) :
    s.cleanup =
      { s with
        lvData := false, lvSclk := false, lvLclk := false
        events := s.events ++ [.written .data false, .written .sclk false, .written .lclk false] } := by
  apply State.ext_fields <;> simp

theorem State.raiseHalt_eq (c : HaltCause) (s : State) :
    s.raiseHalt c =
      { s with
        lvData := false, lvSclk := false, lvLclk := false
        events := s.events ++ [.written .data false, .written .sclk false, .written .lclk false]
        sqPhase := .idle, halted := true, haltCause := c } := by
  apply State.ext_fields <;> simp

theorem State.resetBlock_eq (s : State) :
    s.resetBlock =
      { State.reset with
        chSr := s.chSr, chOut := s.chOut
        events := s.events ++ [.written .data false, .written .sclk false, .written .lclk false]
        inputs := s.inputs, draws := s.draws } := by
  apply State.ext_fields <;> simp [State.reset]

theorem State.rejectWrite_eq (p : Pin) (v : Level) (s : State) :
    s.rejectWrite p v =
      { s with
        lvData := false, lvSclk := false, lvLclk := false
        chSr := Config.rejectedShift s.draws, chOut := Config.rejectedLatch s.draws, draws := s.draws + 1
        events := s.events ++ .rejected p v :: [.written .data false, .written .sclk false, .written .lclk false]
        sqPhase := .idle, halted := true, haltCause := .pinWriteFailed } := by
  apply State.ext_fields <;> simp

/-- A pin write that raises nothing leaves the chain alone. -/
theorem State.pinWrite_chain_of_not_rises (p : Pin) (v : Level) (s : State) (h : rises (s.level p) v = false) :
    (s.pinWrite p v).chSr = s.chSr ∧ (s.pinWrite p v).chOut = s.chOut := by
  cases p <;> simp_all [State.level]

theorem shiftIn_getLsbD (sr : Frame) (b : Level) (k : Nat) :
    (shiftIn sr b).getLsbD k = if k = 0 then b else (decide (k < 48) && sr.getLsbD (k - 1)) := by
  unfold shiftIn
  rw [BitVec.getLsbD_append]
  rcases k with _ | k
  · simp
  · by_cases h : k < 47
    · simp [h, show k + 1 < 48 by omega]
    · simp [h, show ¬ k + 1 < 48 by omega]

/-- One equation for each transition of the pc (43_shift_bus R144 to R148). -/
theorem State.advancePc_latchLow {s : State} (h : s.sqPhase = .latchLow) : s.advancePc = { s with sqPhase := .clkLow } := by
  simp [State.advancePc, h]

theorem State.advancePc_clkLow {s : State} (h : s.sqPhase = .clkLow) : s.advancePc = { s with sqPhase := .data } := by
  simp [State.advancePc, h]

theorem State.advancePc_data {s : State} (h : s.sqPhase = .data) : s.advancePc = { s with sqPhase := .clkHigh } := by
  simp [State.advancePc, h]

theorem State.advancePc_clkHigh_last {s : State} (h : s.sqPhase = .clkHigh) (hi : s.sqIdx = 0) :
    s.advancePc = { s with sqPhase := .latchHigh } := by
  unfold State.advancePc; rw [h]; exact if_pos hi

theorem State.advancePc_clkHigh_next {s : State} (h : s.sqPhase = .clkHigh) (hi : s.sqIdx ≠ 0) :
    s.advancePc = { s with sqIdx := s.sqIdx - 1, sqPhase := .clkLow } := by
  unfold State.advancePc; rw [h]; exact if_neg hi

theorem State.advancePc_latchHigh {s : State} (h : s.sqPhase = .latchHigh) : s.advancePc = { s with sqPhase := .idle } := by
  simp [State.advancePc, h]

/-- Lane `i` of six bytes put side by side is byte `i` (42_serializer R121). -/
theorem lane_append (a b c d e f : Byte) (i : Fin 6) :
    lane (a ++ b ++ c ++ d ++ e ++ f : BitVec (8 + 8 + 8 + 8 + 8 + 8)) i = [a, b, c, d, e, f].get i := by
  have ha := a.isLt; have hb := b.isLt; have hc := c.isLt; have hd := d.isLt; have he := e.isLt; have hf := f.isLt
  apply BitVec.eq_of_toNat_eq
  fin_cases i <;>
    simp only [lane, BitVec.extractLsb'_toNat, BitVec.toNat_append, Nat.shiftRight_eq_div_pow, List.get] <;>
    rw [← Nat.shiftLeft_add_eq_or_of_lt (by omega), ← Nat.shiftLeft_add_eq_or_of_lt (by omega),
      ← Nat.shiftLeft_add_eq_or_of_lt (by omega), ← Nat.shiftLeft_add_eq_or_of_lt (by omega),
      ← Nat.shiftLeft_add_eq_or_of_lt (by omega)] <;>
    simp [Nat.shiftLeft_eq] <;> omega

theorem frameBit_of_le {f : Frame} {i : BitVec 6} (h : i.toNat ≤ 47) : frameBit f i = some (f.getLsbD i.toNat) := by
  unfold frameBit; rw [if_pos (by omega)]

end Sys2Proof.Machine
end

