-- ==== Sys2Proof/Laws/Step.lean ====
section
/-! SUPPORT. What one step can do, said once: a step that answers a next state took one of these ways. -/

namespace Sys2Proof.Machine

open Sys2Proof

/-- Each way a step ends in a next state, in the order of 60_exceptions R223. -/
inductive Took (p : Inputs) (s t : State) : Prop where
  | reset (hr : p.rst = true) (ht : t = s.resetBlock)
  | stayHalted (hr : p.rst = false) (hh : s.halted = true) (ht : t = s)
  | abort (hr : p.rst = false) (hh : s.halted = false) (ha : p.abortReq = true) (ht : t = s.raiseHalt .abort)
  | write (hr : p.rst = false) (hh : s.halted = false) (ha : p.abortReq = false) (hb : s.busy = true) (q : Pin) (v : Level)
      (hw : (s.sqPhase = .latchLow ∧ q = .lclk ∧ v = false) ∨ (s.sqPhase = .clkLow ∧ q = .sclk ∧ v = false) ∨
        (s.sqPhase = .data ∧ q = .data ∧ frameBit s.sqFrame s.sqIdx = some v) ∨
        (s.sqPhase = .clkHigh ∧ q = .sclk ∧ v = true) ∨ (s.sqPhase = .latchHigh ∧ q = .lclk ∧ v = true))
      (ht : t = s.attempt p.pinOk q v)
  | command (ha : s.accepts p = true) (i : Instr) (hd : decode p.cmd = .ok i) (ht : exec i s = .next t)
  | illegal (ha : s.accepts p = true) (op : BitVec 3) (hd : decode p.cmd = .error (.reservedOpcode op))
      (ht : t = s.raiseHalt .illegalCommand)
  | nothing (hr : p.rst = false) (hh : s.halted = false) (ha : p.abortReq = false) (hb : s.busy = false)
      (hc : p.cmdValid = false) (ht : t = s)

theorem State.busy_iff (s : State) : s.busy = true ↔ s.sqPhase ≠ .idle := by
  unfold State.busy; cases s.sqPhase <;> decide

theorem State.sequencerStep_next {ok : Bool} {s t : State} (hb : s.busy = true) (h : s.sequencerStep ok = .next t) :
    ∃ q v, ((s.sqPhase = .latchLow ∧ q = Pin.lclk ∧ v = false) ∨ (s.sqPhase = .clkLow ∧ q = .sclk ∧ v = false) ∨
      (s.sqPhase = .data ∧ q = .data ∧ frameBit s.sqFrame s.sqIdx = some v) ∨
      (s.sqPhase = .clkHigh ∧ q = .sclk ∧ v = true) ∨ (s.sqPhase = .latchHigh ∧ q = .lclk ∧ v = true)) ∧
      t = s.attempt ok q v := by
  unfold State.sequencerStep at h
  cases hp : s.sqPhase with
  | idle => simp [State.busy_iff, hp] at hb
  | data =>
    simp only [hp] at h
    cases hf : frameBit s.sqFrame s.sqIdx with
    | none => simp [hf] at h
    | some b => simp only [hf, Host.Outcome.next.injEq] at h; exact ⟨.data, b, by simp, h.symm⟩
  | latchLow => simp only [hp, Host.Outcome.next.injEq] at h; exact ⟨.lclk, false, by simp, h.symm⟩
  | clkLow => simp only [hp, Host.Outcome.next.injEq] at h; exact ⟨.sclk, false, by simp, h.symm⟩
  | clkHigh => simp only [hp, Host.Outcome.next.injEq] at h; exact ⟨.sclk, true, by simp, h.symm⟩
  | latchHigh => simp only [hp, Host.Outcome.next.injEq] at h; exact ⟨.lclk, true, by simp, h.symm⟩

theorem State.react_took {p : Inputs} {s t : State} (h : s.react p = .next t) : Took p s t := by
  unfold State.react at h
  split at h
  · next hr => exact .reset hr (by simpa using h.symm)
  next hr =>
  have hr : p.rst = false := by simpa using hr
  split at h
  · next hh => exact .stayHalted hr hh (by simpa using h.symm)
  next hh =>
  have hh : s.halted = false := by simpa using hh
  split at h
  · next ha => exact .abort hr hh ha (by simpa using h.symm)
  next ha =>
  have ha : p.abortReq = false := by simpa using ha
  split at h
  · next hb =>
    obtain ⟨q, v, hw, ht⟩ := State.sequencerStep_next hb h
    exact .write hr hh ha hb q v hw ht
  next hb =>
  have hb : s.busy = false := by simpa using hb
  split at h
  · next hc =>
    have acc : s.accepts p = true := by simp [State.accepts, hr, hh, ha, hb, hc]
    unfold State.accept at h
    split at h
    · next i hd => exact .command acc i hd h
    · next e hd => cases e with | reservedOpcode op => exact .illegal acc op hd (by simpa using h.symm)
  · next hc => exact .nothing hr hh ha hb (by simpa using hc) (by simpa using h.symm)

/-- The inversion lemma of a step: it read the sample `s.sample`, and then took one of the ways of `Took`. -/
theorem step_took {s t : State} (h : step s = .next t) : Took s.sample s.consume t := State.react_took h

/-- A SEND that is part way answers a next state as long as SQ_IDX names a bit. -/
theorem State.sequencerStep_of_range {ok : Bool} {s : State} (h : s.sqIdx.toNat ≤ 47) :
    ∃ t, s.sequencerStep ok = .next t := by
  unfold State.sequencerStep
  rw [frameBit_of_le h]
  split <;> exact ⟨_, rfl⟩

/-- Every command answers a next state. -/
theorem exec_next (i : Instr) (s : State) : ∃ t, exec i s = .next t := by
  cases i with
  | encode c => exact ⟨_, rfl⟩
  | serialize text len => simp only [exec, execSerialize]; split <;> exact ⟨_, rfl⟩
  | send f w => simp only [exec, execSend]; split <;> exact ⟨_, rfl⟩
  | shutdown => exact ⟨_, rfl⟩

end Sys2Proof.Machine
end

