-- ==== Sys2Proof/Laws/HostProgram.lean ====
section
/-! SUPPORT. What one step of a host's run can do, said once. -/

namespace Sys2Proof.Machine

open Sys2Proof

/-- A step of a run that answers a next one: some command or none stood on the ports, the machine stepped with it, and the
command is pending and held exactly when it was not accepted. -/
theorem HostRun.step_next {ch : HostChoice} {h h' : HostRun} (hs : h.step ch = .next h') :
    ∃ c, h.onPorts ch = .ok c ∧ Sys2Proof.Machine.step (h.state.drive (ch.sample c)) = .next h'.state ∧
      h'.mayWait = true ∧
      ((h.state.accepts (ch.sample c) = true ∧ h'.pending = h.pending.tail ∧ h'.held = none) ∨
        (h.state.accepts (ch.sample c) = false ∧ h'.pending = h.pending ∧ h'.held = c)) := by
  unfold HostRun.step at hs
  split at hs
  · simp at hs
  next c hc =>
  split at hs
  · next t ht =>
    split at hs
    · next ha => cases hs; exact ⟨c, hc, ht, rfl, .inl ⟨ha, rfl, rfl⟩⟩
    · next ha => cases hs; exact ⟨c, hc, ht, rfl, .inr ⟨by simpa using ha, rfl, rfl⟩⟩
  · simp at hs
  · simp at hs

/-- What can stand on the ports: the held command; else the first pending one. -/
theorem HostRun.onPorts_some {ch : HostChoice} {h : HostRun} {c : CommandPorts} (hc : h.onPorts ch = .ok (some c)) :
    h.held = some c ∨ (h.held = none ∧ ∃ x xs, h.pending = x :: xs ∧ portsOf h.state.frame x = .ok c) := by
  unfold HostRun.onPorts at hc
  split at hc
  · next c' hh => simp_all
  next hh =>
  split at hc
  · simp at hc
  next x xs hp =>
  split at hc
  · cases hx : portsOf h.state.frame x with
    | error e => simp [hx, Except.map] at hc
    | ok d => simp_all [Except.map]
  · simp at hc

@[simp] theorem HostChoice.sample_cmd (ch : HostChoice) (c : CommandPorts) : (ch.sample (some c)).cmd = c := rfl

@[simp] theorem HostChoice.sample_cmdValid (ch : HostChoice) (c : Option CommandPorts) :
    (ch.sample c).cmdValid = c.isSome := by cases c <;> rfl

@[simp] theorem HostRun.onPorts_of_held {ch : HostChoice} {h : HostRun} {c : CommandPorts} (hh : h.held = some c) :
    h.onPorts ch = .ok (some c) := by
  simp [HostRun.onPorts, hh]

end Sys2Proof.Machine
end

