-- ==== Sys2Proof/Laws/Syntax.lean ====
section
/-! SUPPORT. The typed operands of a command pass every check of 30_encoding R79. -/

namespace Sys2Proof

theorem Instr.wellFormed_all (i : Instr) : i.wellFormed = true := by
  cases i with
  | encode c => simp [Instr.wellFormed, charSpelled, c.isLt]
  | serialize text len =>
    have h1 := text.isLt
    have h2 := len.isLt
    simp only [Instr.wellFormed, Bool.and_eq_true, decide_eq_true_eq]
    omega
  | send f w =>
    have h1 := f.isLt
    have h2 := w.isLt
    simp only [Instr.wellFormed, FrameOperand.spelled, widthSpelled, Bool.and_eq_true, decide_eq_true_eq]
    omega
  | shutdown => rfl

theorem Opcode.ofBits_toBits (o : Opcode) : Opcode.ofBits o.toBits = some o := by cases o <;> rfl

end Sys2Proof
end

