-- ==== Sys2Proof/Laws/PerInstr.lean ====
section
/-! SUPPORT. Statements for all instructions, one lemma per constructor of Instr. -/

/-- The decoder reads back what the encoder writes. -/
def Sys2Proof.Laws.RoundTrip.Statement (i : Sys2Proof.Instr) : Prop :=
  Sys2Proof.decode (Sys2Proof.encode i) = .ok i

theorem Sys2Proof.Laws.RoundTrip.encode (c : Sys2Proof.Byte) : Sys2Proof.Laws.RoundTrip.Statement (.encode c) := rfl

theorem Sys2Proof.Laws.RoundTrip.serialize (text : Sys2Proof.Frame) (len : BitVec 4) :
    Sys2Proof.Laws.RoundTrip.Statement (.serialize text len) := rfl

theorem Sys2Proof.Laws.RoundTrip.send (f : Sys2Proof.Frame) (w : BitVec 6) :
    Sys2Proof.Laws.RoundTrip.Statement (.send f w) := rfl

theorem Sys2Proof.Laws.RoundTrip.shutdown : Sys2Proof.Laws.RoundTrip.Statement .shutdown := rfl

/-- The ports can express the command (30_encoding R79). -/
def Sys2Proof.Laws.PortsExpress.Statement (i : Sys2Proof.Instr) : Prop := i.wellFormed = true

theorem Sys2Proof.Laws.PortsExpress.encode (c : Sys2Proof.Byte) : Sys2Proof.Laws.PortsExpress.Statement (.encode c) :=
  Sys2Proof.Instr.wellFormed_all _

theorem Sys2Proof.Laws.PortsExpress.serialize (text : Sys2Proof.Frame) (len : BitVec 4) :
    Sys2Proof.Laws.PortsExpress.Statement (.serialize text len) := Sys2Proof.Instr.wellFormed_all _

theorem Sys2Proof.Laws.PortsExpress.send (f : Sys2Proof.Frame) (w : BitVec 6) :
    Sys2Proof.Laws.PortsExpress.Statement (.send f w) := Sys2Proof.Instr.wellFormed_all _

theorem Sys2Proof.Laws.PortsExpress.shutdown : Sys2Proof.Laws.PortsExpress.Statement .shutdown :=
  Sys2Proof.Instr.wellFormed_all _
end

