-- ==== Sys2Proof/Tests/Slice0.lean ====
section
/-! SUPPORT. Tests with results from spec/95_test_vectors.md and the rules, and a witness for the hypotheses of each
statement. -/

namespace Sys2Proof.Tests

open Sys2Proof Sys2Proof.Machine

/-- A READY state with chosen contents of the chain, reading the samples `ps`. -/
def ready (ps : List Inputs) : State :=
  { State.reset with chSr := 0x111111111111, chOut := 0x222222222222, events := [], inputs := ps }

/-- A sample that presents a command. -/
def cmd (c : CommandPorts) : Inputs := { cmdValid := true, cmd := c }

/-- A state part way through a SEND of V40's frame. -/
def busy (ph : Phase) (idx : BitVec 6) (ps : List Inputs) : State :=
  { ready ps with sqFrame := 0x667F00767173, sqPhase := ph, sqIdx := idx }

/-- The next state of a step, `none` where it stops. -/
def after (s : State) : Option State :=
  match step s with
  | .next t => some t
  | _ => none

/-! ### The decoder, on words written out from 30_encoding R72 to R77 -/

theorem test_decode_encode : decode { op := 0b001, charIn := 0x48 } = .ok (.encode 0x48) := by decide
theorem test_decode_serialize :
    decode { op := 0b010, textIn := 0x343820484650, lenIn := 0b0110 } = .ok (.serialize 0x343820484650 6) := by decide
theorem test_decode_send :
    decode { op := 0b011, frameIn := 0x667F00767173, widthIn := 0b110000 } = .ok (.send 0x667F00767173 48) := by decide
theorem test_decode_shutdown : decode { op := 0b100 } = .ok .shutdown := by decide
theorem test_decode_reserved :
    [0b000, 0b101, 0b110, 0b111].map (fun o : BitVec 3 => decode { op := o }) =
      [0b000, 0b101, 0b110, 0b111].map (fun o : BitVec 3 => .error (.reservedOpcode o)) := by decide
theorem test_table_words :
    [0x1, 0x2, 0x3, 0x4].map (decodeTableWord 8) =
      [some (.encode 0), some (.serialize 0 0), some (.send 0 0), some .shutdown] := by decide
theorem test_encode_send_ports :
    encode (.send 0x667F00767173 48) = { op := 0b011, frameIn := 0x667F00767173, widthIn := 0b110000 } := by decide

/-! ### The boundary: an ill-formed term for each check (30_encoding R79) -/

theorem test_char_256_refused : (HostCommand.encode 256).wellFormed = false := by decide
theorem test_text_16_refused : (HostCommand.serialize (List.replicate 16 0x30)).wellFormed = false := by decide
theorem test_text_char_refused : (HostCommand.serialize [0x30, 300]).wellFormed = false := by decide
theorem test_show_16_refused : (HostCommand.showText (List.replicate 16 0x30)).wellFormed = false := by decide
theorem test_frame_49_bits_refused : (HostCommand.send (.literal (2 ^ 48)) 48).wellFormed = false := by decide
theorem test_width_64_refused : (HostCommand.send .frameOut 64).wellFormed = false := by decide
theorem test_width_negative_refused : (HostCommand.send .frameOut (-1)).wellFormed = false := by decide
theorem test_boundary_values_spelled :
    [HostCommand.encode 255, .serialize (List.replicate 15 0xFF), .send (.literal (2 ^ 48 - 1)) 63, .send .frameOut 0,
      .shutdown, .showText []].all HostCommand.wellFormed = true := by decide

/-! ### ENCODE and SERIALIZE under REF: vectors V1 to V9q, V20 to V35 -/

theorem test_ref_digits :
    [0x30, 0x31, 0x32, 0x33, 0x34, 0x35, 0x36, 0x37, 0x38, 0x39].map (encWith Config.ref) =
      [0x3F, 0x06, 0x5B, 0x4F, 0x66, 0x6D, 0x7D, 0x07, 0x7F, 0x6F] := by decide
theorem test_ref_letters :
    [0x48, 0x46, 0x50, 0x20, 0x68, 0x66, 0x70, 0x3A, 0x2D, 0x00, 0x7F, 0xFF, 0x2F, 0x3B, 0x47, 0x4F].map
        (encWith Config.ref) =
      [0x76, 0x71, 0x73, 0x00, 0x80, 0x80, 0x80, 0x80, 0x80, 0x80, 0x80, 0x80, 0x80, 0x80, 0x80, 0x80] := by decide
/-- The column 'segments lit' of 41_encoder R105, for `2`, `F` and the sentinel. -/
theorem test_ref_segments :
    [0x32, 0x46, 0x2D].map (fun c => [Segment.a, .b, .c, .d, .e, .f, .g, .dp].filter (refLit (encWith Config.ref c))) =
      [[.a, .b, .d, .e, .g], [.a, .e, .f, .g], [.dp]] := by decide
theorem test_ref_frames :
    [0x343820484650, 0x313233343536, 0x31323A333461, 0x686670203438, 0x202020202020, 0x303132332050].map
        (serWith Config.ref) =
      [0x667F00767173, 0x065B4F666D7D, 0x065B804F6680, 0x80808000667F, 0x000000000000, 0x3F065B4F0073] := by decide
theorem test_encode_step :
    (after (ready [cmd { op := 0b001, charIn := 0x48 }])).map (fun t => (t.frame, t.halted, t.events, t.inputs)) =
      some (0, false, [], []) := by decide
theorem test_serialize_bad_length :
    (after (ready [cmd { op := 0b010, textIn := 0x31323A333400, lenIn := 5 }])).map
        (fun t => (t.halted, t.haltCause.toBits, t.frame, t.events)) =
      some (true, 2, 0, lowEvents) := by decide

/-! ### SEND and the sequencer: vectors V43 to V57 -/

theorem test_send_accepted :
    (after (ready [cmd { op := 0b011, frameIn := 0xA5A5A5A5A5A5, widthIn := 48 }])).map
        (fun t => (t.pc, t.busy, t.sqFrame, t.events)) =
      some ((.latchLow, 47), true, 0xA5A5A5A5A5A5, []) := by decide
theorem test_send_bad_width :
    [0, 47, 49, 63].map (fun w : BitVec 6 =>
        (after (ready [cmd { op := 0b011, frameIn := 0xA5A5A5A5A5A5, widthIn := w }])).map
          fun t => (t.haltCause.toBits, t.sqFrame, t.pc)) =
      List.replicate 4 (some (3, 0, (.idle, 0))) := by decide
theorem test_data_write_is_frame_bit :
    (after (busy .data 46 [{ }])).map (fun t => (t.lvData, t.pc)) = some (true, (.clkHigh, 46)) := by decide
theorem test_clk_high_shifts :
    (after { busy .clkHigh 44 [{ }] with lvData := true }).map (fun t => (t.chSr, t.chOut, t.pc)) =
      some (0x222222222223, 0x222222222222, (.clkLow, 43)) := by decide
theorem test_clk_high_ends_loop :
    (after (busy .clkHigh 0 [{ }])).map (fun t => t.pc) = some (.latchHigh, 0) := by decide
theorem test_latch_high_latches :
    (after (busy .latchHigh 0 [{ }])).map (fun t => (t.chOut, t.lvLclk, t.busy)) =
      some (0x111111111111, true, false) := by decide
theorem test_partial_shift :
    [partialShift 0x111111111111 0x667F00767173 3, partialShift 0x3F3F3F3F3F6D 0x3F3F3F3F3F66 8] =
      [0x88888888888B, 0x3F3F3F3F6D3F] := by decide
theorem test_pc_table :
    [0, 1, 4, 25, 73, 145, 146].map pcBefore =
      [(.latchLow, 47), (.clkLow, 47), (.clkLow, 46), (.clkLow, 39), (.clkLow, 23), (.latchHigh, 0), (.idle, 0)] := by
  decide

/-! ### Halts, abort, reset, priority, STATUS: vectors V60 to V74 -/

theorem test_reserved_opcodes_halt :
    [0b000, 0b101, 0b110, 0b111].map (fun o : BitVec 3 => (after (ready [cmd { op := o }])).map fun t => t.haltCause.toBits) =
      List.replicate 4 (some 1) := by decide
theorem test_shutdown :
    (after { ready [cmd { op := 0b100 }] with lvData := true, lvSclk := true, lvLclk := true }).map
        (fun t => (t.status, t.chOut, t.chSr)) =
      some (0x1A, 0x222222222222, 0x111111111111) := by decide
theorem test_abort_idle_with_command :
    (after (ready [{ cmd { op := 0b001 } with abortReq := true }])).map (fun t => (t.haltCause.toBits, t.code)) =
      some (5, 0) := by decide
theorem test_abort_busy :
    (after (busy .clkHigh 39 [{ abortReq := true, pinOk := false }])).map (fun t => (t.haltCause.toBits, t.pc, t.events)) =
      some (5, (.idle, 39), lowEvents) := by decide
theorem test_reset_beats_abort :
    (after (busy .data 3 [{ rst := true, abortReq := true }])).map (fun t => (t.halted, t.ready, t.sqIdx, t.chSr)) =
      some (false, true, 0, 0x111111111111) := by decide
theorem test_halted_ignores_abort :
    (after { ready [{ abortReq := true }] with halted := true, haltCause := .badWidth }).map
        (fun t => (t.haltCause.toBits, t.events)) =
      some (3, []) := by decide
theorem test_rejected_write :
    (after (busy .clkHigh 15 [{ pinOk := false }])).map (fun t => (t.haltCause.toBits, t.pc, t.events, t.draws)) =
      some (4, (.idle, 15), .rejected .sclk true :: lowEvents, 1) := by decide
theorem test_pin_ok_ignored_when_idle :
    (after (ready [{ pinOk := false }])).map (fun t => (t.halted, t.events)) = some (false, []) := by decide
theorem test_status :
    ({ ready [] with lvData := true, lvSclk := true, lvLclk := true }).status = 0xE0 ∧ (ready []).status = 0x00 := by
  decide
theorem test_sq_idx_out_of_range :
    (match step (busy .data 48 [{ }]) with | .fault r => decide (r = .sqIdxOutOfRange) | _ => false) = true := by decide
theorem test_pin_ids : [0, 1, 2, 3].map pinOfId = [some .data, some .sclk, some .lclk, none] := by decide

/-! ### The assembler and host programs: 30_encoding R82, R83, 44_system R183 -/

theorem test_read_send :
    readLine ['S', 'E', 'N', 'D', ' ', 'F', 'R', 'A', 'M', 'E', ',', ' ', '4', '8', ' ', '#', 'x'] =
      .ok (some (.send .frameOut 48)) := by decide
theorem test_read_encode_hex : readLine ['E', 'N', 'C', 'O', 'D', 'E', ' ', '0', 'x', '4', '8'] = .ok (some (.encode 0x48)) := by
  decide
theorem test_read_unknown_mnemonic_refused : readLine ['N', 'O', 'P'] = .error .notSpelled := by decide
theorem test_short_text_lanes : textPort [0x31, 0x32, 0x3A, 0x33, 0x34] = 0x31323A333400 := by decide
theorem test_show_expands : expandLine (.showText [0x34]) = [.serialize [0x34], .send .frameOut 48] := by decide
theorem test_disassemble_reserved :
    disassemble { op := 0b101 } = some ['.', 'i', 'l', 'l', 'e', 'g', 'a', 'l', ' ', '0', 'b', '1', '0', '1'] := by decide
theorem test_host_holds_command_while_busy :
    (match HostRun.step { } { state := busy .clkLow 4 [], pending := [.line .shutdown], held := none, mayWait := true } with
      | .next h =>
        decide (h.pending = [.line .shutdown] ∧ h.held = some { op := 0b100 } ∧ h.state.sqPhase = .data)
      | _ => false) = true := by decide
/-- A SEND FRAME on the ports when the host resets: FRAME becomes 0 and the held operand does not (30_encoding R76). -/
theorem test_held_frame_survives_reset :
    (match HostRun.step { rst := true }
        { state := { ready [] with frame := 0x667F00767173 }, pending := [.line (.send .frameOut 48)], held := none
          mayWait := true } with
      | .next h =>
        decide (h.state.frame = 0 ∧ h.sample { present := false } = .ok (sendSample 0x667F00767173))
      | _ => false) = true := by decide
/-- The host may not wait with its first command, and may with a later one (44_system R184). -/
theorem test_host_waits_between_commands_only :
    (startHost [.line .shutdown]).sample { present := false } = .ok (cmd { op := 0b100 }) ∧
      HostRun.sample { present := false } { startHost [.line .shutdown] with mayWait := true } = .ok { } := by decide
theorem test_host_presents_reserved_opcode :
    (match HostRun.step { } (startHost [.ports { op := 0b111 }]) with
      | .next h => decide (h.state.haltCause = .illegalCommand ∧ h.pending = [])
      | _ => false) = true := by decide

/-! ### Witnesses: a state and operands that meet the hypotheses of each statement -/

theorem witness_OpcodeMapSelectsOneEntry :
    (∃ p : CommandPorts, p.op = 0b001) ∧ (∃ p : CommandPorts, p.op = 0b010) ∧ (∃ p : CommandPorts, p.op = 0b011) ∧
      (∃ p : CommandPorts, p.op = 0b100) ∧
      (∃ p : CommandPorts, p.op = 0b000) ∧ (∃ p : CommandPorts, p.op = 0b101) ∧ (∃ p : CommandPorts, p.op = 0b110) ∧
      ∃ p : CommandPorts, p.op = 0b111 :=
  ⟨⟨{ op := 0b001 }, rfl⟩, ⟨{ op := 0b010 }, rfl⟩, ⟨{ op := 0b011 }, rfl⟩, ⟨{ op := 0b100 }, rfl⟩, ⟨{ op := 0b000 }, rfl⟩,
    ⟨{ op := 0b101 }, rfl⟩, ⟨{ op := 0b110 }, rfl⟩, ⟨{ op := 0b111 }, rfl⟩⟩

theorem witness_AssemblerReadsBackDisassembly :
    writeInstr (.serialize 0x313200000000 2) = some ['S', 'E', 'R', 'I', 'A', 'L', 'I', 'Z', 'E', ' ', '"', '1', '2', '"'] ∧
      ∀ l : Fin 6, 2 ≤ l.val → lane 0x313200000000 l = 0 := by decide

/-- The clauses at their boundary values: 256, 16 characters, a character 256, 2^48, -1, 64, and 15 characters of 255. -/
theorem witness_BoundaryRefusesUnspellable :
    256 ≤ (256 : Nat) ∧ 15 < (List.replicate 16 0x30).length ∧ (∃ ch ∈ [0x30, 256], 256 ≤ ch) ∧ 2 ^ 48 ≤ (2 ^ 48 : Nat) ∧
      (-1 : Int) < 0 ∧ 64 ≤ (64 : Int) ∧ (List.replicate 15 255).length ≤ 15 ∧ ∀ ch ∈ List.replicate 15 255, ch < 256 := by
  decide

theorem witness_StepRunsDecodedCommand :
    let s := ready [cmd { op := 0b001, charIn := 0x48 }]
    s.accepts s.sample = true ∧ decode s.sample.cmd = .ok (.encode 0x48) := by decide

theorem witness_FetchWordRunsNext : decodeTableWord 8 0x4 = some .shutdown := by decide

theorem witness_UnacceptedCommandHasNoEffect :
    let s := busy .data 3 [cmd { op := 0b100 }]
    s.accepts s.sample = false ∧ s.sample.cmdValid = true := by decide

theorem witness_UnusedOperandPortsIgnored :
    let p : CommandPorts := { op := 0b001, charIn := 0x48 }
    let q : CommandPorts := { op := 0b001, charIn := 0x48, frameIn := 1 }
    p ≠ q ∧ p.op = q.op ∧ (p.op = 0b001 → p.charIn = q.charIn) ∧
      (p.op = 0b010 → p.textIn = q.textIn ∧ p.lenIn = q.lenIn) ∧
      (p.op = 0b011 → p.frameIn = q.frameIn ∧ p.widthIn = q.widthIn) := by decide

theorem witness_ReservedOpcodeHalts :
    ∀ o ∈ [(0b000 : BitVec 3), 0b101, 0b110, 0b111],
      (ready [cmd { op := o }]).accepts (ready [cmd { op := o }]).sample = true := by decide

theorem witness_ResetSetsEveryRegister :
    (busy .data 3 [{ rst := true, abortReq := true }]).sample.rst = true ∧
      (∃ t, after { ready [{ rst := true }] with halted := true, haltCause := .abort } = some t ∧ t.halted = false) :=
  ⟨by decide, ⟨_, rfl, rfl⟩⟩

theorem witness_HaltedStepChangesNothing :
    let s := { ready [cmd { op := 0b001 }] with halted := true, haltCause := .abort }
    s.halted = true ∧ s.sample.rst = false := by decide

theorem witness_AbortHaltsAtOnce :
    let s := busy .clkHigh 39 [{ abortReq := true }]
    s.sample.rst = false ∧ s.halted = false ∧ s.sample.abortReq = true := by decide

theorem witness_IdleStepChangesNothing :
    let s := ready [{ pinOk := false }]
    s.ready = true ∧ s.sample.rst = false ∧ s.sample.abortReq = false ∧ s.sample.cmdValid = false := by decide

theorem witness_BusyStepIgnoresCommandPorts : (busy .latchLow 47 []).busy = true := by decide

theorem witness_PinOkReadOnlyBySequencer :
    (busy .data 3 [{ rst := true }]).sample.rst = true ∧ ({ ready [] with halted := true } : State).halted = true ∧
      (busy .data 3 [{ abortReq := true }]).sample.abortReq = true ∧ (ready []).busy = false := by decide

theorem witness_RefMeetsItsConstraints :
    (0x68 : Byte) ∉ [(0x30 : Byte), 0x31, 0x32, 0x33, 0x34, 0x35, 0x36, 0x37, 0x38, 0x39, 0x48, 0x46, 0x50, 0x20] := by
  decide

theorem witness_SerializeBadLengthHalts : (5 : BitVec 4) ≠ 6 ∧ (7 : BitVec 4) ≠ 6 ∧ (0 : BitVec 4) ≠ 6 := by decide

theorem witness_SerializerInjectiveOnSupported :
    (∀ i : Fin 6, supportedOf (lane 0x343820484650 i) ≠ none) ∧
      (∀ i : Fin 6, lane 0x3A3030303030 i = lane 0x683030303030 i ∨
        (supportedOf (lane 0x3A3030303030 i) = none ∧ supportedOf (lane 0x683030303030 i) = none)) := by decide

theorem witness_SendAcceptanceStartsSequencer :
    (48 : BitVec 6) = 48 ∧ (47 : BitVec 6) ≠ 48 ∧ (49 : BitVec 6) ≠ 48 ∧ (busy .latchHigh 0 []).busy = true := by decide

theorem witness_SendBadWidthKeepsSequencer : (47 : BitVec 6) ≠ 48 ∧ (ready []).busy = false := by decide

/-- A legal state in each phase of a SEND, at the ends of its index range. -/
theorem legal_busy (ph : Phase) (idx : BitVec 6)
    (h : (ph, idx) ∈ [(Phase.latchLow, 47), (.clkLow, 47), (.clkLow, 0), (.data, 47), (.data, 0)]) :
    (busy ph idx [{ }]).Legal := by
  simp only [List.mem_cons, Prod.mk.injEq, List.not_mem_nil, or_false] at h
  rcases h with ⟨rfl, rfl⟩ | ⟨rfl, rfl⟩ | ⟨rfl, rfl⟩ | ⟨rfl, rfl⟩ | ⟨rfl, rfl⟩ <;> constructor <;> decide

theorem legal_clkHigh_last : ({ busy .clkHigh 0 [{ }] with lvData := true }).Legal := by constructor <;> decide

theorem legal_clkHigh_first : (busy .clkHigh 47 [{ }]).Legal := by constructor <;> decide

theorem legal_latchHigh : ({ busy .latchHigh 0 [{ }] with lvSclk := true }).Legal := by constructor <;> decide

theorem witness_SequencerTransitions :
    (busy .latchLow 47 [{ }]).Legal ∧ (busy .clkLow 47 [{ }]).Legal ∧ (busy .data 47 [{ }]).Legal ∧
      (busy .data 0 [{ }]).Legal ∧ (busy .clkHigh 47 [{ }]).Legal ∧
      ({ busy .clkHigh 0 [{ }] with lvData := true }).Legal ∧ ({ busy .latchHigh 0 [{ }] with lvSclk := true }).Legal ∧
      (busy .data 0 [{ }]).halted = false ∧ undisturbed (busy .data 0 [{ }]).sample = true :=
  ⟨legal_busy _ _ (by decide), legal_busy _ _ (by decide), legal_busy _ _ (by decide), legal_busy _ _ (by decide),
    legal_clkHigh_first, legal_clkHigh_last, legal_latchHigh, by decide, by decide⟩

theorem witness_RejectedWriteHalts :
    let s := busy .clkHigh 47 [{ pinOk := false }]
    s.sample.rst = false ∧ s.halted = false ∧ s.sample.abortReq = false ∧ s.sample.pinOk = false ∧ s.sqIdx.toNat ≤ 47 ∧
      phaseWrite (s.sqFrame.getLsbD s.sqIdx.toNat) s.sqPhase = some (.sclk, true) := by decide

theorem undisturbed_replicate (n : Nat) : ∀ p ∈ List.replicate n ({ } : Inputs), undisturbed p = true := by
  intro p hp
  rw [List.eq_of_mem_replicate hp]; rfl

/-- A sample that presents SEND f, 48 with other operand ports set and the pin input low. -/
def loudSend (f : Frame) : Inputs :=
  { cmdValid := true, cmd := { encode (.send f 48) with charIn := 0x48, textIn := 1, lenIn := 5 }, pinOk := false }

theorem witness_CompleteSendShowsFrame :
    let ps := List.replicate 146 ({ } : Inputs)
    let p := loudSend 0x667F00767173
    let s := ready (p :: (ps ++ [{ rst := true }]))
    s.accepts p = true ∧ decode p.cmd = .ok (.send 0x667F00767173 48) ∧ ps.length = 146 ∧
      (∀ q ∈ ps, undisturbed q = true) ∧ s.inputs = p :: (ps ++ [{ rst := true }]) :=
  ⟨rfl, rfl, rfl, undisturbed_replicate 146, rfl⟩

/-- The end of the range of k, all 146 writes. -/
theorem witness_PartialSendProgress :
    let ps := List.replicate 146 ({ } : Inputs)
    let p := loudSend 0x667F00767173
    let s := ready (p :: (ps ++ []))
    s.accepts p = true ∧ decode p.cmd = .ok (.send 0x667F00767173 48) ∧ ps.length ≤ 146 ∧
      (∀ q ∈ ps, undisturbed q = true) ∧ s.inputs = p :: (ps ++ []) :=
  ⟨rfl, rfl, by simp, undisturbed_replicate 146, rfl⟩

/-- The other end of the range of k, no write yet. -/
theorem witness_PartialSendProgress_start :
    let p := sendSample 0x667F00767173
    let s := ready [p]
    s.accepts p = true ∧ decode p.cmd = .ok (.send 0x667F00767173 48) ∧ ([] : List Inputs).length ≤ 146 ∧
      (∀ q ∈ ([] : List Inputs), undisturbed q = true) ∧ s.inputs = p :: ([] ++ []) :=
  ⟨rfl, rfl, by decide, by decide, rfl⟩

theorem witness_CompleteSendDisplaysText :
    let ps := List.replicate 146 ({ } : Inputs)
    let p := loudSend (ser 0x343820484650)
    let s := ready (p :: (ps ++ []))
    s.accepts p = true ∧ decode p.cmd = .ok (.send (ser 0x343820484650) 48) ∧ ps.length = 146 ∧
      (∀ q ∈ ps, undisturbed q = true) ∧ s.inputs = p :: (ps ++ []) :=
  ⟨rfl, rfl, rfl, undisturbed_replicate 146, rfl⟩

theorem witness_ChainHoldsShiftedBits : (0 : Nat) ≤ 48 ∧ (48 : Nat) ≤ 48 := by decide

theorem witness_RisingEdgesMoveChain : (ready []).lvSclk = false ∧ (ready []).lvLclk = false := by decide

theorem witness_ChainChangesOnlyOnRisingEdges :
    (∃ t, after (busy .clkHigh 3 [{ }]) = some t ∧ t.chSr ≠ (busy .clkHigh 3 [{ }]).chSr) ∧
      (∃ t, after (busy .latchHigh 0 [{ }]) = some t ∧ t.chOut ≠ (busy .latchHigh 0 [{ }]).chOut) :=
  ⟨⟨_, rfl, by decide⟩, ⟨_, rfl, by decide⟩⟩

theorem witness_ChainInvisibleToBlock :
    let s1 := busy .clkHigh 3 [{ }]
    let s2 := { busy .clkHigh 3 [{ }] with chSr := 0, chOut := 1 }
    s1 ≠ s2 ∧ s1.blockView = s2.blockView ∧ (after s1).isSome = true := by decide

theorem witness_StepKeepsLegal : (busy .data 0 [{ }]).Legal ∧ (after (busy .data 0 [{ }])).isSome = true :=
  ⟨legal_busy _ _ (by decide), by decide⟩

theorem witness_LegalStateNeverStops : (busy .latchLow 47 [{ }]).Legal := legal_busy _ _ (by decide)

theorem bits_ne_not {n : Nat} (h : 0 < n) (x : BitVec n) : x ≠ ~~~x := by
  intro e
  have := congrArg (fun y => y.getLsbD 0) e
  simp [h] at this

theorem witness_OnlyEncodeWritesCode :
    (∃ t, after { ready [cmd { op := 0b001, charIn := 0x48 }] with code := ~~~enc 0x48 } = some t ∧ t.code ≠ ~~~enc 0x48) ∧
      ∃ t, after { ready [{ rst := true }] with code := 5 } = some t ∧ t.code ≠ 5 :=
  ⟨⟨_, rfl, bits_ne_not (by decide) _⟩, ⟨_, rfl, by decide⟩⟩

theorem witness_OnlySerializeWritesFrame :
    (∃ t, after { ready [cmd { op := 0b010, textIn := 0x343820484650, lenIn := 6 }] with frame := ~~~ser 0x343820484650 } =
        some t ∧ t.frame ≠ ~~~ser 0x343820484650) ∧
      ∃ t, after { ready [{ rst := true }] with frame := 5 } = some t ∧ t.frame ≠ 5 :=
  ⟨⟨_, rfl, bits_ne_not (by decide) _⟩, ⟨_, rfl, by decide⟩⟩

theorem witness_OnlySendWritesSqFrame :
    (∃ t, after (ready [sendSample 1]) = some t ∧ t.sqFrame ≠ (ready []).sqFrame) ∧
      ∃ t, after (busy .data 3 [{ rst := true }]) = some t ∧ t.sqFrame ≠ (busy .data 3 []).sqFrame :=
  ⟨⟨_, rfl, by decide⟩, ⟨_, rfl, by decide⟩⟩

theorem witness_HaltCauseKeptUntilReset :
    (∃ t, after (ready [cmd { op := 0b100 }]) = some t ∧ t.haltCause ≠ .none) ∧
      ∃ t, after { ready [{ rst := true }] with halted := true, haltCause := .abort } = some t ∧ t.haltCause ≠ .abort :=
  ⟨⟨_, rfl, by decide⟩, ⟨_, rfl, by decide⟩⟩

theorem witness_HostHoldsCommandUnchanged :
    let h : HostRun := { state := busy .clkLow 4 [], pending := [.line .shutdown], held := none, mayWait := true }
    let p := cmd { op := 0b100 }
    h.sample { } = .ok p ∧ p.cmdValid = true ∧ h.state.accepts p = false ∧
      (match h.step { } with | .next _ => true | _ => false) = true := by decide

/-- A run that holds its first pending command while the block is BUSY. -/
def holding : HostRun :=
  { state := busy .clkLow 4 [], pending := [.line .shutdown, .line .shutdown], held := some { op := 0b100 }, mayWait := true }

theorem witness_HostPresentsInOrderFromReset :
    portsOf State.reset.frame (.line (.encode 0x48)) = .ok { op := 0b001, charIn := 0x48 } ∧
      (match HostRun.step { } (startHost [.line .shutdown]) with | .next h => decide (h.pending = []) | _ => false) = true ∧
      (match holding.sample { } with | .ok p => p.cmdValid && !holding.state.accepts p | _ => false) = true ∧
      (match holding.step { } with | .next h => decide (h.held = holding.held) | _ => false) = true := by
  decide

theorem witness_HostPresentsInOrderFromReset_holds : holding.HoldsFirst := by
  intro c hc
  exact ⟨.line .shutdown, [.line .shutdown], 0, rfl, by cases hc; decide⟩

theorem witness_HistoryOnlyGrows : (after (busy .clkHigh 15 [{ pinOk := false }])).isSome = true := by decide

end Sys2Proof.Tests
end

section
/-! SUPPORT. What a step leaves, by the state it ends in: the inversion lemmas of Laws/Step.lean carried through the meaning
of each command and through the accepted or rejected pin write. -/

namespace Sys2Proof.Machine

open Sys2Proof

theorem State.accepts_iff (p : Inputs) (s : State) :
    s.accepts p = true ↔
      p.rst = false ∧ s.halted = false ∧ p.abortReq = false ∧ s.busy = false ∧ p.cmdValid = true := by
  simp [State.accepts, and_assoc]

/-- A halted block accepts nothing (30_encoding R76). -/
theorem State.halted_of_accepts {p : Inputs} {s : State} (ha : s.accepts p = true) : s.halted = false := by
  obtain ⟨-, hh, -, -, -⟩ := (s.accepts_iff p).1 ha
  exact hh

@[simp] theorem State.consume_busy (s : State) : s.consume.busy = s.busy := by simp [State.busy]

@[simp] theorem State.consume_accepts (p : Inputs) (s : State) : s.consume.accepts p = s.accepts p := by
  simp [State.accepts]

@[simp] theorem State.attempt_true (q : Pin) (v : Level) (s : State) :
    s.attempt true q v = (s.pinWrite q v).advancePc := rfl

@[simp] theorem State.attempt_false (q : Pin) (v : Level) (s : State) : s.attempt false q v = s.rejectWrite q v := rfl

theorem frameBit_eq_some {f : Frame} {i : BitVec 6} {b : Level} (h : frameBit f i = some b) :
    i.toNat ≤ 47 ∧ b = f.getLsbD i.toNat := by
  unfold frameBit at h
  split at h
  · next hi => exact ⟨by omega, (Option.some.inj h).symm⟩
  · cases h

/-- The meaning of a SERIALIZE, a case each (42_serializer R122, R123). -/
theorem exec_serialize (text : Frame) (len : BitVec 4) (s : State) :
    exec (.serialize text len) s =
      if len = 6 then .next { s with frame := ser text } else .next (s.raiseHalt .badLength) := by
  have hlen : len.toNat = Config.nDigits ↔ len = 6 := BitVec.toNat_inj (y := 6#4)
  simp only [exec, execSerialize, hlen]

/-- The meaning of a SEND, a case each (43_shift_bus R142, R143). -/
theorem exec_send (f : Frame) (w : BitVec 6) (s : State) :
    exec (.send f w) s =
      if w = 48 then .next { s with sqFrame := f, sqPhase := .latchLow, sqIdx := 47 }
      else .next (s.raiseHalt .badWidth) := by
  have hw : w.toNat = Config.sendWidth ↔ w = 48 := BitVec.toNat_inj (y := 48#6)
  simp only [exec, execSend, hw]

/-- The inversion lemma of a command: it wrote the one register it is for, or it entered a halt. -/
theorem exec_cases {i : Instr} {s t : State} (h : exec i s = .next t) :
    (∃ c, i = .encode c ∧ t = { s with code := enc c }) ∨
    (∃ text, i = .serialize text 6 ∧ t = { s with frame := ser text }) ∨
    (∃ f, i = .send f 48 ∧ t = { s with sqFrame := f, sqPhase := .latchLow, sqIdx := 47 }) ∨
    (∃ cause, cause ≠ .none ∧ t = s.raiseHalt cause) := by
  cases i with
  | encode c => exact .inl ⟨c, rfl, (Host.Outcome.next.inj h).symm⟩
  | serialize text len =>
    rw [exec_serialize] at h
    split at h
    · next hlen => exact .inr (.inl ⟨text, by rw [hlen], (Host.Outcome.next.inj h).symm⟩)
    · exact .inr (.inr (.inr ⟨.badLength, by decide, (Host.Outcome.next.inj h).symm⟩))
  | send f w =>
    rw [exec_send] at h
    split at h
    · next hw => exact .inr (.inr (.inl ⟨f, by rw [hw], (Host.Outcome.next.inj h).symm⟩))
    · exact .inr (.inr (.inr ⟨.badWidth, by decide, (Host.Outcome.next.inj h).symm⟩))
  | shutdown => exact .inr (.inr (.inr ⟨.shutdown, by decide, (Host.Outcome.next.inj h).symm⟩))

/-- What a step with the sample `p` leaves of the state `s` (60_exceptions R223): every halt that is no rejected write is one
case here, whatever raised it. -/
inductive Effect (p : Inputs) (s t : State) : Prop where
  | reset (hr : p.rst = true) (ht : t = s.resetBlock)
  | unchanged (ht : t = s)
  | halt (hh : s.halted = false) (cause : HaltCause) (hc : cause ≠ .none) (ht : t = s.raiseHalt cause)
  | reject (hh : s.halted = false) (q : Pin) (v : Level) (ht : t = s.rejectWrite q v)
  | write (hh : s.halted = false) (q : Pin) (v : Level)
      (hw : phaseWrite (s.sqFrame.getLsbD s.sqIdx.toNat) s.sqPhase = some (q, v))
      (ht : t = (s.pinWrite q v).advancePc)
  | encode (ha : s.accepts p = true) (c : Byte) (hd : decode p.cmd = .ok (.encode c)) (ht : t = { s with code := enc c })
  | serialize (ha : s.accepts p = true) (text : Frame) (hd : decode p.cmd = .ok (.serialize text 6))
      (ht : t = { s with frame := ser text })
  | send (ha : s.accepts p = true) (f : Frame) (hd : decode p.cmd = .ok (.send f 48))
      (ht : t = { s with sqFrame := f, sqPhase := .latchLow, sqIdx := 47 })

theorem Took.effect {p : Inputs} {s t : State} (h : Took p s t) : Effect p s t := by
  cases h with
  | reset hr ht => exact .reset hr ht
  | stayHalted _ _ ht => exact .unchanged ht
  | abort _ hh _ ht => exact .halt hh .abort (by decide) ht
  | write _ hh _ _ q v hw ht =>
    cases hok : p.pinOk with
    | false => exact .reject hh q v (by rw [ht, hok, State.attempt_false])
    | true =>
      refine .write hh q v ?_ (by rw [ht, hok, State.attempt_true])
      rcases hw with ⟨hp, rfl, rfl⟩ | ⟨hp, rfl, rfl⟩ | ⟨hp, rfl, hf⟩ | ⟨hp, rfl, rfl⟩ | ⟨hp, rfl, rfl⟩
      case inr.inr.inl => rw [hp, (frameBit_eq_some hf).2]; rfl
      all_goals rw [hp]; rfl
  | command ha i hd hexec =>
    rcases exec_cases hexec with ⟨c, rfl, ht⟩ | ⟨text, rfl, ht⟩ | ⟨f, rfl, ht⟩ | ⟨cause, hc, ht⟩
    · exact .encode ha c hd ht
    · exact .serialize ha text hd ht
    · exact .send ha f hd ht
    · exact .halt (State.halted_of_accepts ha) cause hc ht
  | illegal ha _ _ ht => exact .halt (State.halted_of_accepts ha) .illegalCommand (by decide) ht
  | nothing _ _ _ _ _ ht => exact .unchanged ht

theorem step_effect {s t : State} (h : step s = .next t) : Effect s.sample s.consume t := (step_took h).effect

end Sys2Proof.Machine
end

section
/-! PROOFS. Who writes each register (10_state R21 to R23, R31). -/

namespace Sys2Proof.Machine

open Sys2Proof

/-- Settles O46: of the effects of a step, reset and ENCODE alone touch CODE. -/
theorem onlyEncodeWritesCode : Obligations.OnlyEncodeWritesCode := by
  intro s t hstep hne
  cases step_effect hstep with
  | reset hr ht => exact .inl ⟨hr, by simp [ht]⟩
  | encode ha c hd ht => exact .inr ⟨by simpa using ha, c, hd, by rw [ht]⟩
  | unchanged ht | halt _ _ _ ht | reject _ _ _ ht | write _ _ _ _ ht | serialize _ _ _ ht | send _ _ _ ht =>
    simp [ht] at hne

/-- Settles O47: of the effects of a step, reset and a SERIALIZE of length 6 alone touch FRAME. -/
theorem onlySerializeWritesFrame : Obligations.OnlySerializeWritesFrame := by
  intro s t hstep hne
  cases step_effect hstep with
  | reset hr ht => exact .inl ⟨hr, by simp [ht]⟩
  | serialize ha text hd ht => exact .inr ⟨by simpa using ha, text, hd, by rw [ht]⟩
  | unchanged ht | halt _ _ _ ht | reject _ _ _ ht | write _ _ _ _ ht | encode _ _ _ ht | send _ _ _ ht =>
    simp [ht] at hne

/-- Settles O48: of the effects of a step, reset and the acceptance of a SEND alone touch SQ_FRAME, and a BUSY block accepts
nothing. -/
theorem onlySendWritesSqFrame : Obligations.OnlySendWritesSqFrame := by
  intro s t hstep hne
  cases step_effect hstep with
  | reset hr ht => exact .inl ⟨hr, by simp [ht]⟩
  | send ha f hd ht =>
    have hacc : s.accepts s.sample = true := by simpa using ha
    obtain ⟨-, -, -, hbusy, -⟩ := (s.accepts_iff s.sample).1 hacc
    exact .inr ⟨hacc, hbusy, f, hd, by rw [ht], by rw [ht]; rfl⟩
  | unchanged ht | halt _ _ _ ht | reject _ _ _ ht | write _ _ _ _ ht | encode _ _ _ ht | serialize _ _ _ ht =>
    simp [ht] at hne

/-- Settles O49: of the effects of a step, reset and the two ways into a halt alone touch HALT_CAUSE, and a halt is entered
from HALTED = 0. -/
theorem haltCauseKeptUntilReset : Obligations.HaltCauseKeptUntilReset := by
  intro s t hstep hne
  cases step_effect hstep with
  | reset hr ht => exact .inl ⟨hr, by simp [ht]⟩
  | halt hh cause hc ht => exact .inr ⟨by simpa using hh, by simp [ht], by simpa [ht] using hc, by simp [ht]⟩
  | reject hh q v ht => exact .inr ⟨by simpa using hh, by simp [ht]⟩
  | unchanged ht | write _ _ _ _ ht | encode _ _ _ ht | serialize _ _ _ ht | send _ _ _ ht => simp [ht] at hne

end Sys2Proof.Machine
end

section
/-! PROOFS. The legal states (10_state R24, R28, R30, R31, 43_shift_bus R152): each effect of a step keeps them, and from
one of them a step answers. -/

namespace Sys2Proof.Machine

open Sys2Proof

/-- Where the block is halted, the clauses about a SEND in progress are empty: it is idle. -/
theorem State.legal_of_halted {s : State} (hidx : s.sqIdx.toNat ≤ 47) (hh : s.halted = true) (hc : s.haltCause ≠ .none)
    (hp : s.sqPhase = .idle) (hlow : s.lvData = false ∧ s.lvSclk = false ∧ s.lvLclk = false) : s.Legal where
  idx_range := hidx
  cause_iff := ⟨fun _ => hc, fun _ => hh⟩
  halted_idle _ := hp
  halted_low _ := hlow
  latch_low_idx h := by simp [hp] at h
  latch_high_idx h := by simp [hp] at h
  slot_lclk h := by simp [hp, Phase.inSlot] at h
  data_sclk h := by simp [hp] at h
  edge_data h := by simp [hp] at h

theorem State.Legal.consume {s : State} (h : s.Legal) : s.consume.Legal where
  idx_range := by simpa using h.idx_range
  cause_iff := by simpa using h.cause_iff
  halted_idle := by simpa using h.halted_idle
  halted_low := by simpa using h.halted_low
  latch_low_idx := by simpa using h.latch_low_idx
  latch_high_idx := by simpa using h.latch_high_idx
  slot_lclk := by simpa using h.slot_lclk
  data_sclk := by simpa using h.data_sclk
  edge_data := by simpa using h.edge_data

theorem State.resetBlock_legal (s : State) : s.resetBlock.Legal := by
  constructor <;> simp [Phase.inSlot]

theorem State.Legal.raiseHalt {s : State} (h : s.Legal) {cause : HaltCause} (hc : cause ≠ .none) :
    (s.raiseHalt cause).Legal :=
  State.legal_of_halted (by simpa using h.idx_range) (by simp) (by simpa using hc) (by simp) (by simp)

theorem State.Legal.rejectWrite {s : State} (h : s.Legal) (q : Pin) (v : Level) : (s.rejectWrite q v).Legal :=
  State.legal_of_halted (by simpa using h.idx_range) (by simp) (by simp) (by simp) (by simp)

/-- The acceptance of a SEND starts at bit 47, before any bit slot (43_shift_bus R142). -/
theorem State.Legal.send {s : State} (h : s.Legal) (hh : s.halted = false) (f : Frame) :
    State.Legal { s with sqFrame := f, sqPhase := .latchLow, sqIdx := 47 } where
  idx_range := show (47#6).toNat ≤ 47 by decide
  cause_iff := h.cause_iff
  halted_idle hhalt := by simp [hh] at hhalt
  halted_low hhalt := by simp [hh] at hhalt
  latch_low_idx _ := rfl
  latch_high_idx := by simp
  slot_lclk := by simp [Phase.inSlot]
  data_sclk := by simp
  edge_data := by simp

/-- An accepted pin write keeps the legal states: each phase hands the next one the levels it asks for. -/
theorem State.Legal.write {s : State} (h : s.Legal) (hh : s.halted = false) {q : Pin} {v : Level}
    (hw : phaseWrite (s.sqFrame.getLsbD s.sqIdx.toNat) s.sqPhase = some (q, v)) :
    (s.pinWrite q v).advancePc.Legal := by
  have hcause : s.haltCause = .none := by simpa [hh] using h.cause_iff
  have hidx := h.idx_range
  have hlclk := h.slot_lclk
  have hsclk := h.data_sclk
  cases hp : s.sqPhase with
  | idle => simp [phaseWrite, hp] at hw
  | latchLow =>
    obtain ⟨rfl, rfl⟩ : Pin.lclk = q ∧ false = v := by simpa [phaseWrite, hp] using hw
    rw [State.advancePc_latchLow (by simpa using hp)]
    constructor <;> simp_all [Phase.inSlot]
  | clkLow =>
    obtain ⟨rfl, rfl⟩ : Pin.sclk = q ∧ false = v := by simpa [phaseWrite, hp] using hw
    rw [State.advancePc_clkLow (by simpa using hp)]
    constructor <;> simp_all [Phase.inSlot]
  | data =>
    obtain ⟨rfl, rfl⟩ : Pin.data = q ∧ s.sqFrame.getLsbD s.sqIdx.toNat = v := by simpa [phaseWrite, hp] using hw
    rw [State.advancePc_data (by simpa using hp)]
    constructor <;> simp_all [Phase.inSlot]
  | clkHigh =>
    obtain ⟨rfl, rfl⟩ : Pin.sclk = q ∧ true = v := by simpa [phaseWrite, hp] using hw
    by_cases hz : s.sqIdx = 0
    · rw [State.advancePc_clkHigh_last (by simpa using hp) (by simpa using hz)]
      constructor <;> simp_all [Phase.inSlot]
    · rw [State.advancePc_clkHigh_next (by simpa using hp) (by simpa using hz)]
      have hpred : (s.sqIdx - 1).toNat ≤ 47 := by bv_omega
      constructor <;> simp_all [Phase.inSlot]
  | latchHigh =>
    obtain ⟨rfl, rfl⟩ : Pin.lclk = q ∧ true = v := by simpa [phaseWrite, hp] using hw
    rw [State.advancePc_latchHigh (by simpa using hp)]
    constructor <;> simp_all [Phase.inSlot]

theorem Effect.legal {p : Inputs} {s t : State} (hs : s.Legal) (h : Effect p s t) : t.Legal := by
  cases h with
  | reset _ ht => exact ht ▸ s.resetBlock_legal
  | unchanged ht => exact ht ▸ hs
  | halt _ _ hc ht => exact ht ▸ hs.raiseHalt hc
  | reject _ q v ht => exact ht ▸ hs.rejectWrite q v
  | write hh _ _ hw ht => exact ht ▸ hs.write hh hw
  | encode _ _ _ ht => exact ht ▸ { hs with }
  | serialize _ _ _ ht => exact ht ▸ { hs with }
  | send ha f _ ht => exact ht ▸ hs.send (State.halted_of_accepts ha) f

/-- Settles O43, effect by effect. -/
theorem stepKeepsLegal : Obligations.StepKeepsLegal := by
  intro s t hs hstep
  exact (step_effect hstep).legal hs.consume

/-- The accepting step answers a next state, a reserved opcode too (30_encoding R80). -/
theorem State.accept_next (c : CommandPorts) (s : State) : ∃ t, s.accept c = .next t := by
  unfold State.accept
  split
  · exact exec_next _ s
  · exact ⟨_, rfl⟩

/-- Of the ways of R223 only the sequencer can stop the machine, and SQ_IDX in 0..47 shuts that out (log 7). -/
theorem State.react_of_range (p : Inputs) {s : State} (hidx : s.sqIdx.toNat ≤ 47) :
    ∃ t, s.react p = .next t := by
  unfold State.react
  split_ifs
  · exact ⟨_, rfl⟩
  · exact ⟨_, rfl⟩
  · exact ⟨_, rfl⟩
  · exact State.sequencerStep_of_range hidx
  · exact s.accept_next p.cmd
  · exact ⟨_, rfl⟩

/-- Settles O44: reading the sample keeps the range of SQ_IDX. -/
theorem legalStateNeverStops : Obligations.LegalStateNeverStops := by
  intro s hs
  exact s.consume.react_of_range s.sample hs.consume.idx_range

end Sys2Proof.Machine
end

section
/-! PROOFS. The block cannot see its chain (10_state R35, 60_exceptions R239): hiding the chain commutes with every operation
up to what the operation does to the chain, so the step of a state and of its block view end in the same block view. -/

namespace Sys2Proof.Machine

open Sys2Proof

@[simp] theorem State.blockView_sqFrame (s : State) : s.blockView.sqFrame = s.sqFrame := rfl
@[simp] theorem State.blockView_sqIdx (s : State) : s.blockView.sqIdx = s.sqIdx := rfl
@[simp] theorem State.blockView_sqPhase (s : State) : s.blockView.sqPhase = s.sqPhase := rfl
@[simp] theorem State.blockView_halted (s : State) : s.blockView.halted = s.halted := rfl
@[simp] theorem State.blockView_busy (s : State) : s.blockView.busy = s.busy := rfl
@[simp] theorem State.blockView_sample (s : State) : s.blockView.sample = s.sample := rfl

theorem State.pinWrite_blockView (q : Pin) (v : Level) (s : State) :
    (s.blockView.pinWrite q v).blockView = (s.pinWrite q v).blockView := by cases q <;> rfl

theorem State.advancePc_blockView (s : State) : s.blockView.advancePc = s.advancePc.blockView := by
  obtain ⟨_, _, _, idx, phase, _, _, _, _, _, _, _, _, _, _⟩ := s
  cases phase with
  | clkHigh =>
    by_cases hz : idx = 0
    · rw [State.advancePc_clkHigh_last rfl hz, State.advancePc_clkHigh_last rfl hz]; rfl
    · rw [State.advancePc_clkHigh_next rfl hz, State.advancePc_clkHigh_next rfl hz]; rfl
  | idle | latchLow | clkLow | data | latchHigh => rfl

theorem State.attempt_blockView (ok : Bool) (q : Pin) (v : Level) (s : State) :
    (s.blockView.attempt ok q v).blockView = (s.attempt ok q v).blockView := by
  cases ok with
  | false => rfl
  | true =>
    rw [State.attempt_true, State.attempt_true, ← State.advancePc_blockView, State.pinWrite_blockView,
      State.advancePc_blockView]

theorem State.consume_blockView (s : State) : s.blockView.consume = s.consume.blockView := by
  unfold State.consume
  split <;> simp_all [State.blockView]

/-- What an outcome shows of the block: the next state without its chain, or the stop. -/
def blockOutcome : Host.Outcome State Fault Refusal → Host.Outcome State Fault Refusal
  | .next t => .next t.blockView
  | .fault r => .fault r
  | .refused r => .refused r

theorem blockOutcome_eq_next {o : Host.Outcome State Fault Refusal} {u : State} (h : blockOutcome o = .next u) :
    ∃ t, o = .next t ∧ u = t.blockView := by
  cases o with
  | next t => exact ⟨t, rfl, (Host.Outcome.next.inj h).symm⟩
  | fault | refused => cases h

theorem State.sequencerStep_blockView (ok : Bool) (s : State) :
    blockOutcome (s.blockView.sequencerStep ok) = blockOutcome (s.sequencerStep ok) := by
  have hattempt (q : Pin) (v : Level) : blockOutcome (.next (s.blockView.attempt ok q v)) =
      blockOutcome (.next (s.attempt ok q v)) := congrArg Host.Outcome.next (s.attempt_blockView ok q v)
  unfold State.sequencerStep
  rw [State.blockView_sqPhase]
  split
  · rfl
  · exact hattempt .lclk false
  · exact hattempt .sclk false
  · rw [State.blockView_sqFrame, State.blockView_sqIdx]
    split
    · exact hattempt .data _
    · rfl
  · exact hattempt .sclk true
  · exact hattempt .lclk true

theorem exec_blockView (i : Instr) (s : State) : blockOutcome (exec i s.blockView) = blockOutcome (exec i s) := by
  cases i with
  | encode | shutdown => rfl
  | serialize text len => rw [exec_serialize, exec_serialize]; split <;> rfl
  | send f w => rw [exec_send, exec_send]; split <;> rfl

theorem State.accept_blockView (c : CommandPorts) (s : State) :
    blockOutcome (s.blockView.accept c) = blockOutcome (s.accept c) := by
  unfold State.accept
  split
  · exact exec_blockView _ s
  · rfl

theorem State.react_blockView (p : Inputs) (s : State) :
    blockOutcome (s.blockView.react p) = blockOutcome (s.react p) := by
  unfold State.react
  rw [State.blockView_halted, State.blockView_busy]
  split_ifs
  · rfl
  · rfl
  · rfl
  · exact s.sequencerStep_blockView p.pinOk
  · exact s.accept_blockView p.cmd
  · rfl

theorem step_blockView (s : State) : blockOutcome (step s.blockView) = blockOutcome (step s) := by
  unfold step
  rw [State.consume_blockView, State.blockView_sample]
  exact s.consume.react_blockView s.sample

/-- Settles O38: both states step as their one block view does. -/
theorem chainInvisibleToBlock : Obligations.ChainInvisibleToBlock := by
  intro s1 s2 t1 hview hstep
  have hsame : blockOutcome (step s2) = .next t1.blockView := by
    rw [← step_blockView, ← hview, step_blockView, hstep]; rfl
  exact blockOutcome_eq_next hsame

end Sys2Proof.Machine
end

section
/-! SUPPORT. The pin writes of a send (43_shift_bus R140) replayed on the state, and what they leave in each field. -/

namespace Sys2Proof.Machine

open Sys2Proof

/-- The state after the writes of a history, as the machine makes them: an accepted one drives its pin, a rejected one is
recorded alone. -/
def State.replay : List PinEvent → State → State
  | [], s => s
  | .written q v :: es, s => State.replay es (s.pinWrite q v)
  | .rejected q v :: es, s => State.replay es (s.record (.rejected q v))

@[simp] theorem State.replay_nil (s : State) : s.replay [] = s := rfl

@[simp] theorem State.replay_written (q : Pin) (v : Level) (es : List PinEvent) (s : State) :
    s.replay (.written q v :: es) = (s.pinWrite q v).replay es := rfl

@[simp] theorem State.replay_rejected (q : Pin) (v : Level) (es : List PinEvent) (s : State) :
    s.replay (.rejected q v :: es) = (s.record (.rejected q v)).replay es := rfl

theorem State.replay_append (es es' : List PinEvent) (s : State) : s.replay (es ++ es') = (s.replay es).replay es' := by
  induction es generalizing s with
  | nil => rfl
  | cons e es ih => cases e <;> exact ih _

/-- What neither a pin write nor a record changes, a replay does not change. -/
theorem State.replay_keeps {α : Type} {g : State → α} (hwrite : ∀ q v s, g (State.pinWrite q v s) = g s)
    (hrecord : ∀ e s, g (State.record e s) = g s) (es : List PinEvent) (s : State) : g (s.replay es) = g s := by
  induction es generalizing s with
  | nil => rfl
  | cons e es ih =>
    cases e with
    | written q v => exact (ih _).trans (hwrite q v s)
    | rejected q v => exact (ih _).trans (hrecord _ s)

@[simp] theorem State.replay_code (es : List PinEvent) (s : State) : (s.replay es).code = s.code :=
  State.replay_keeps State.pinWrite_code State.record_code es s
@[simp] theorem State.replay_frame (es : List PinEvent) (s : State) : (s.replay es).frame = s.frame :=
  State.replay_keeps State.pinWrite_frame State.record_frame es s
@[simp] theorem State.replay_halted (es : List PinEvent) (s : State) : (s.replay es).halted = s.halted :=
  State.replay_keeps State.pinWrite_halted State.record_halted es s
@[simp] theorem State.replay_haltCause (es : List PinEvent) (s : State) : (s.replay es).haltCause = s.haltCause :=
  State.replay_keeps State.pinWrite_haltCause State.record_haltCause es s
@[simp] theorem State.replay_draws (es : List PinEvent) (s : State) : (s.replay es).draws = s.draws :=
  State.replay_keeps State.pinWrite_draws State.record_draws es s

@[simp] theorem State.replay_events (es : List PinEvent) (s : State) : (s.replay es).events = s.events ++ es := by
  induction es generalizing s with
  | nil => simp
  | cons e es ih => cases e <;> simp [ih]

/-! ### The writes of the bit slots -/

@[simp] theorem bitSlots_zero (f : Frame) : bitSlots f 0 = [] := rfl

theorem bitSlots_succ (f : Frame) (n : Nat) :
    bitSlots f (n + 1) =
      .written .sclk false :: .written .data (f.getLsbD n) :: .written .sclk true :: bitSlots f n := rfl

@[simp] theorem length_bitSlots (f : Frame) (n : Nat) : (bitSlots f n).length = 3 * n := by
  induction n with
  | zero => rfl
  | succ n ih => simp only [bitSlots_succ, List.length_cons, ih]; omega

/-- Slot `j` of `n` carries bit `n - 1 - j` (43_shift_bus R140): its three writes stand at `3j`, `3j + 1` and `3j + 2`. -/
theorem getElem?_bitSlots {f : Frame} {n j : Nat} (hj : j < n) :
    (bitSlots f n)[3 * j]? = some (.written .sclk false) ∧
    (bitSlots f n)[3 * j + 1]? = some (.written .data (f.getLsbD (n - 1 - j))) ∧
    (bitSlots f n)[3 * j + 2]? = some (.written .sclk true) := by
  induction n generalizing j with
  | zero => omega
  | succ n ih =>
    rw [bitSlots_succ]
    cases j with
    | zero => simp
    | succ j =>
      have hbit : n + 1 - 1 - (j + 1) = n - 1 - j := by omega
      rw [hbit]
      exact ih (by omega)

/-- The first `k` writes of the bit slots shift one bit into the chain for each full slot among them, and latch nothing
(60_exceptions R233, R236). -/
theorem State.replay_take_bitSlots (f : Frame) (n k : Nat) (hk : k ≤ 3 * n) (s : State) :
    (s.replay ((bitSlots f n).take k)).chSr =
        (List.range (k / 3)).foldl (fun r i => shiftIn r (f.getLsbD (n - 1 - i))) s.chSr ∧
      (s.replay ((bitSlots f n).take k)).chOut = s.chOut := by
  induction n generalizing k s with
  | zero => simp [show k = 0 by omega]
  | succ n ih =>
    rw [bitSlots_succ]
    match k with
    | 0 | 1 | 2 => simp
    | k + 3 =>
      obtain ⟨hsr, hout⟩ := ih k (by omega)
        (((s.pinWrite .sclk false).pinWrite .data (f.getLsbD n)).pinWrite .sclk true)
      have hslots : (k + 3) / 3 = k / 3 + 1 := by omega
      have hbit (i : Nat) : n + 1 - 1 - (i + 1) = n - 1 - i := by omega
      simp only [List.take_succ_cons, State.replay_written, hsr, hout, hslots, List.range_succ_eq_map,
        List.foldl_cons, List.foldl_map, Nat.succ_eq_add_one, hbit]
      simp

/-! ### The bits that have entered the chain (70_reset_and_hazards R265) -/

@[simp] theorem partialShift_zero (old f : Frame) : partialShift old f 0 = old := by
  have hnone : f >>> 48 = 0 := BitVec.ushiftRight_eq_zero (by decide)
  simp [partialShift, hnone]

/-- One more shift takes in the next bit of the frame, most significant first (60_exceptions R233). -/
theorem partialShift_succ (old f : Frame) {m : Nat} (hm : m < 48) :
    partialShift old f (m + 1) = shiftIn (partialShift old f m) (f.getLsbD (47 - m)) := by
  apply BitVec.eq_of_getLsbD_eq
  intro k hk
  rw [shiftIn_getLsbD]
  cases k with
  | zero => simp [partialShift, show 48 - (m + 1) = 47 - m by omega]
  | succ k =>
    have hbit : 47 - m + (k + 1) = 48 - m + k := by omega
    simp [partialShift, hk, show k < 48 by omega, hbit]

theorem foldl_shiftIn_eq_partialShift (old f : Frame) {m : Nat} (hm : m ≤ 48) :
    (List.range m).foldl (fun r i => shiftIn r (f.getLsbD (47 - i))) old = partialShift old f m := by
  induction m with
  | zero => simp
  | succ m ih => rw [List.range_succ, List.foldl_concat, ih (by omega), partialShift_succ old f (by omega)]

/-! ### The whole sequence -/

theorem sendSeq_eq (f : Frame) (w : Nat) :
    sendSeq f w = .written .lclk false :: (bitSlots f w ++ [.written .lclk true]) := rfl

/-- Before the last write the replayed writes are those of the bit slots, after the one of LATCH_LOW. -/
theorem take_succ_sendSeq (f : Frame) {k : Nat} (hk : k ≤ 144) :
    (sendSeq f 48).take (k + 1) = .written .lclk false :: (bitSlots f 48).take k := by
  have hlen : k ≤ (bitSlots f 48).length := by rw [length_bitSlots]; omega
  rw [sendSeq_eq, List.take_succ_cons, List.take_append_of_le_length hlen]

/-- The last write raises LCLK (43_shift_bus R148). -/
theorem take_sendSeq_last (f : Frame) :
    (sendSeq f 48).take 146 = (sendSeq f 48).take 145 ++ [.written .lclk true] := by
  rw [List.take_add_one]; rfl

/-- A SEND latches nothing before its last write. -/
theorem State.replay_take_sendSeq_chOut (f : Frame) {k : Nat} (hk : k ≤ 145) (s : State) :
    (s.replay ((sendSeq f 48).take k)).chOut = s.chOut := by
  cases k with
  | zero => simp
  | succ k =>
    obtain ⟨-, hout⟩ := State.replay_take_bitSlots f 48 k (by omega) (s.pinWrite .lclk false)
    rw [take_succ_sendSeq f (by omega), State.replay_written, hout]
    simp

/-- The first `k` writes of a SEND shift in one bit for each SCLK rising edge among them. -/
theorem State.replay_take_sendSeq_chSr (f : Frame) {k : Nat} (hk : k ≤ 146) (s : State) :
    (s.replay ((sendSeq f 48).take k)).chSr = partialShift s.chSr f (edgesAfter k) := by
  have before_last {k : Nat} (hk : k ≤ 144) :
      (s.replay ((sendSeq f 48).take (k + 1))).chSr = partialShift s.chSr f (edgesAfter (k + 1)) := by
    obtain ⟨hsr, -⟩ := State.replay_take_bitSlots f 48 k (by omega) (s.pinWrite .lclk false)
    rw [take_succ_sendSeq f hk, State.replay_written, hsr, State.pinWrite_lclk_chSr]
    exact foldl_shiftIn_eq_partialShift s.chSr f (by omega)
  cases k with
  | zero => simp [edgesAfter]
  | succ k =>
    by_cases hlast : k = 145
    · subst hlast
      rw [take_sendSeq_last, State.replay_append]
      exact before_last (k := 144) (by omega)
    · exact before_last (by omega)

end Sys2Proof.Machine
end

section
/-! PROOFS. A SEND that is part way (10_state R28, 70_reset_and_hazards R265). The pc walks the table of R28, the writes it
names are those of the send sequence, so after `k` undisturbed steps the state is the old one with the first `k` writes of
the sequence replayed on it and the pc of the table. -/

namespace Sys2Proof.Machine

open Sys2Proof

/-! ### One step on a sample whose way is known -/

theorem State.sample_of_inputs {s : State} {p : Inputs} {ps : List Inputs} (h : s.inputs = p :: ps) : s.sample = p := by
  simp [State.sample, h]

theorem State.consume_of_inputs {s : State} {p : Inputs} {ps : List Inputs} (h : s.inputs = p :: ps) :
    s.consume = { s with inputs := ps } := by
  simp [State.consume, h]

theorem State.react_of_accepts {p : Inputs} {s : State} {i : Instr} (ha : s.accepts p = true)
    (hd : decode p.cmd = .ok i) : s.react p = exec i s := by
  obtain ⟨hr, hh, hab, hb, hv⟩ := (s.accepts_iff p).1 ha
  simp [State.react, State.accept, hr, hh, hab, hb, hv, hd]

theorem undisturbed_iff (p : Inputs) :
    undisturbed p = true ↔ p.rst = false ∧ p.abortReq = false ∧ p.pinOk = true := by
  simp [undisturbed, and_assoc]

/-- A BUSY block in an undisturbed step makes the pin write its phase names, and the pc moves on. -/
theorem State.react_of_phaseWrite {p : Inputs} {s : State} (hp : undisturbed p = true) (hh : s.halted = false)
    (hidx : s.sqIdx.toNat ≤ 47) {q : Pin} {v : Level}
    (hw : phaseWrite (s.sqFrame.getLsbD s.sqIdx.toNat) s.sqPhase = some (q, v)) :
    s.react p = .next (s.pinWrite q v).advancePc := by
  obtain ⟨hr, hab, hok⟩ := (undisturbed_iff p).1 hp
  have hbusy : s.busy = true := by
    rw [State.busy_iff]
    intro hidle
    simp [phaseWrite, hidle] at hw
  have hreact : s.react p = s.sequencerStep true := by simp [State.react, hr, hh, hab, hbusy, hok]
  rw [hreact]
  unfold State.sequencerStep
  cases hphase : s.sqPhase with
  | data =>
    obtain ⟨rfl, rfl⟩ : Pin.data = q ∧ s.sqFrame.getLsbD s.sqIdx.toNat = v := by simpa [phaseWrite, hphase] using hw
    simp only [frameBit_of_le hidx, State.attempt_true]
  | idle | latchLow | clkLow | clkHigh | latchHigh => simp_all [phaseWrite]

/-! ### The pc walks the table of R28 -/

/-- The transition of the pc alone (43_shift_bus R144 to R148). -/
def nextPc : Phase × BitVec 6 → Phase × BitVec 6
  | (.idle, i) => (.idle, i)
  | (.latchLow, i) => (.clkLow, i)
  | (.clkLow, i) => (.data, i)
  | (.data, i) => (.clkHigh, i)
  | (.clkHigh, i) => if i = 0 then (.latchHigh, i) else (.clkLow, i - 1)
  | (.latchHigh, i) => (.idle, i)

theorem State.advancePc_eq (s : State) :
    s.advancePc = { s with sqPhase := (nextPc s.pc).1, sqIdx := (nextPc s.pc).2 } := by
  obtain ⟨_, _, _, idx, phase, _, _, _, _, _, _, _, _, _, _⟩ := s
  cases phase with
  | clkHigh =>
    by_cases hz : idx = 0
    · rw [State.advancePc_clkHigh_last rfl hz]; simp only [State.pc, nextPc, if_pos hz]
    · rw [State.advancePc_clkHigh_next rfl hz]; simp only [State.pc, nextPc, if_neg hz]
  | idle | latchLow | clkLow | data | latchHigh => rfl

/-- Before write `3j + r + 1` of a SEND stands the phase number `r` of slot `j`. -/
theorem pcBefore_slot {j r : Nat} (hj : j < 48) (hr : r < 3) :
    pcBefore (3 * j + r + 1) =
      (if r = 0 then .clkLow else if r = 1 then .data else .clkHigh, BitVec.ofNat 6 (47 - j)) := by
  have hdiv : (3 * j + r) / 3 = j := by omega
  have hmod : (3 * j + r) % 3 = r := by omega
  simp only [pcBefore, Nat.add_sub_cancel, hdiv, hmod]
  rw [if_neg (by omega), if_neg (by omega), if_neg (by omega)]
  split_ifs <;> rfl

/-- The writes of a SEND: the first, the last, and three for each of the 48 slots. -/
theorem send_write_cases {k : Nat} (hk : k < 146) :
    k = 0 ∨ k = 145 ∨ ∃ j r, j < 48 ∧ r < 3 ∧ k = 3 * j + r + 1 := by
  by_cases h0 : k = 0
  · exact .inl h0
  by_cases hlast : k = 145
  · exact .inr (.inl hlast)
  · exact .inr (.inr ⟨(k - 1) / 3, (k - 1) % 3, by omega, by omega, by omega⟩)

theorem nextPc_pcBefore {k : Nat} (hk : k < 146) : nextPc (pcBefore k) = pcBefore (k + 1) := by
  obtain rfl | rfl | ⟨j, r, hj, hr, rfl⟩ := send_write_cases hk
  · rfl
  · rfl
  rw [pcBefore_slot hj hr]
  match r with
  | 0 => rw [show 3 * j + 0 + 1 + 1 = 3 * j + 1 + 1 by omega, pcBefore_slot hj (by omega)]; rfl
  | 1 => rw [show 3 * j + 1 + 1 + 1 = 3 * j + 2 + 1 by omega, pcBefore_slot hj (by omega)]; rfl
  | 2 =>
    by_cases hlast : j = 47
    · subst hlast; rfl
    · have hne : BitVec.ofNat 6 (47 - j) ≠ 0 := by bv_omega
      have hpred : BitVec.ofNat 6 (47 - j) - 1 = BitVec.ofNat 6 (47 - (j + 1)) := by bv_omega
      rw [show 3 * j + 2 + 1 + 1 = 3 * (j + 1) + 0 + 1 by omega, pcBefore_slot (j := j + 1) (r := 0) (by omega) (by omega),
        ← hpred]
      exact if_neg hne

theorem getElem?_sendSeq_slot (f : Frame) {n : Nat} (hn : n < 144) :
    (sendSeq f 48)[n + 1]? = (bitSlots f 48)[n]? := by
  rw [sendSeq_eq, List.getElem?_cons_succ, List.getElem?_append_left (by rw [length_bitSlots]; omega)]

/-- Write `k` of the send sequence is the one that the pc of the table names. -/
theorem phaseWrite_pcBefore (f : Frame) {k : Nat} (hk : k < 146) :
    (pcBefore k).2.toNat ≤ 47 ∧
    ∃ q v, phaseWrite (f.getLsbD (pcBefore k).2.toNat) (pcBefore k).1 = some (q, v) ∧
      (sendSeq f 48)[k]? = some (.written q v) := by
  obtain rfl | rfl | ⟨j, r, hj, hr, rfl⟩ := send_write_cases hk
  · exact ⟨by decide, .lclk, false, rfl, rfl⟩
  · exact ⟨by decide, .lclk, true, rfl, rfl⟩
  have hidx : (BitVec.ofNat 6 (47 - j)).toNat = 47 - j := by rw [BitVec.toNat_ofNat]; omega
  obtain ⟨hlow, hdata, hhigh⟩ := getElem?_bitSlots (f := f) hj
  rw [pcBefore_slot hj hr, getElem?_sendSeq_slot f (by omega), hidx]
  refine ⟨by omega, ?_⟩
  match r with
  | 0 => exact ⟨.sclk, false, rfl, hlow⟩
  | 1 => exact ⟨.data, f.getLsbD (47 - j), rfl, hdata⟩
  | 2 => exact ⟨.sclk, true, rfl, hhigh⟩

/-! ### The state part way through a SEND -/

/-- The state after the first `k` undisturbed steps of an accepted SEND of `f`, with the samples `ps` still to come. -/
def State.sending (s : State) (f : Frame) (k : Nat) (ps : List Inputs) : State :=
  { s.replay ((sendSeq f 48).take k) with
    sqFrame := f, sqPhase := (pcBefore k).1, sqIdx := (pcBefore k).2, inputs := ps }

theorem step_accepts_send {s : State} {f : Frame} {p : Inputs} {ps : List Inputs} (ha : s.accepts p = true)
    (hd : decode p.cmd = .ok (.send f 48)) (hin : s.inputs = p :: ps) : step s = .next (s.sending f 0 ps) := by
  have hacc : s.consume.accepts p = true := by simpa using ha
  rw [step, State.sample_of_inputs hin, State.react_of_accepts hacc hd, exec_send, if_pos rfl,
    State.consume_of_inputs hin]
  rfl

/-- The writes of the sequencer do not read the registers of the pc, SQ_FRAME or the samples. -/
theorem State.pinWrite_sending (q : Pin) (v : Level) (s : State) (f : Frame) (ph : Phase) (i : BitVec 6)
    (ps : List Inputs) :
    State.pinWrite q v { s with sqFrame := f, sqPhase := ph, sqIdx := i, inputs := ps } =
      { s.pinWrite q v with sqFrame := f, sqPhase := ph, sqIdx := i, inputs := ps } := by
  cases q <;> rfl

theorem step_sending {s : State} {f : Frame} {k : Nat} {p : Inputs} {ps : List Inputs} (hh : s.halted = false)
    (hk : k < 146) (hp : undisturbed p = true) :
    step (s.sending f k (p :: ps)) = .next (s.sending f (k + 1) ps) := by
  obtain ⟨hidx, q, v, hw, hget⟩ := phaseWrite_pcBefore f hk
  have htake : (sendSeq f 48).take (k + 1) = (sendSeq f 48).take k ++ [.written q v] := by
    rw [List.take_add_one, hget]; rfl
  have hhalt : (s.sending f k ps).halted = false := by simpa [State.sending] using hh
  have hreact : (s.sending f k ps).react p = .next ((s.sending f k ps).pinWrite q v).advancePc :=
    State.react_of_phaseWrite hp hhalt hidx hw
  refine hreact.trans (congrArg _ ?_)
  rw [State.advancePc_eq, State.sending, State.pinWrite_sending]
  simp only [State.pc, nextPc_pcBefore hk]
  simp only [State.sending, htake, State.replay_append]
  rfl

theorem runSteps_sending {s : State} {f : Frame} {ps rest : List Inputs} (hh : s.halted = false) {k : Nat}
    (hk : k + ps.length ≤ 146) (hps : ∀ q ∈ ps, undisturbed q = true) :
    runSteps ps.length (s.sending f k (ps ++ rest)) = .next (s.sending f (k + ps.length) rest) := by
  induction ps generalizing k with
  | nil => rfl
  | cons p ps ih =>
    obtain ⟨hp, hps⟩ := List.forall_mem_cons.1 hps
    rw [List.length_cons] at hk
    have hstep : step (s.sending f k (p :: ps ++ rest)) = .next (s.sending f (k + 1) (ps ++ rest)) :=
      step_sending hh (by omega) hp
    have hlen : k + 1 + ps.length = k + (ps.length + 1) := by omega
    simp only [List.length_cons, runSteps, hstep, ih (k := k + 1) (by omega) hps, hlen]

/-- The steps of an accepted SEND of 48 bits: the accepting one, then one for each undisturbed sample, 146 at most. -/
theorem runSteps_send {s : State} {f : Frame} {p : Inputs} {ps rest : List Inputs} (ha : s.accepts p = true)
    (hd : decode p.cmd = .ok (.send f 48)) (hlen : ps.length ≤ 146) (hps : ∀ q ∈ ps, undisturbed q = true)
    (hin : s.inputs = p :: (ps ++ rest)) :
    runSteps (ps.length + 1) s = .next (s.sending f ps.length rest) := by
  have hh := State.halted_of_accepts ha
  have hrun := runSteps_sending (s := s) (f := f) (rest := rest) hh (k := 0) (by omega) hps
  rw [Nat.zero_add] at hrun
  simp only [runSteps, step_accepts_send ha hd hin, hrun]

/-- Settles O31: the state part way is `State.sending`, whose chain is that of the first writes of the sequence. -/
theorem partialSendProgress : Obligations.PartialSendProgress := by
  intro s f p ps rest ha hd hlen hps hin
  have hh := State.halted_of_accepts ha
  refine ⟨_, runSteps_send ha hd hlen hps hin, rfl, by simp [State.sending], ?_, ?_, rfl, by simp [State.sending],
    by simp [State.sending], by simpa [State.sending] using hh, by simp [State.sending], rfl, by simp [State.sending]⟩
  · exact State.replay_take_sendSeq_chSr f hlen s
  · exact fun hbefore => State.replay_take_sendSeq_chOut f hbefore s

end Sys2Proof.Machine
end

section
/-! PROOFS. The layout of STATUS and of the output ports (10_state R32, 30_encoding R71), and the state after reset. -/

namespace Sys2Proof.Machine

open Sys2Proof

/-- The fields of the word of R32, for any values of them. -/
theorem statusWord_fields (lclk sclk data halted busy : Bool) (cause : BitVec 3)
    {w : BitVec (1 + 1 + 1 + 3 + 1 + 1)}
    (hw : w = BitVec.ofBool lclk ++ BitVec.ofBool sclk ++ BitVec.ofBool data ++ cause ++ BitVec.ofBool halted ++
      BitVec.ofBool busy) :
    w.getLsbD 0 = busy ∧ w.getLsbD 1 = halted ∧ w.extractLsb' 2 3 = cause ∧
    w.getLsbD 5 = data ∧ w.getLsbD 6 = sclk ∧ w.getLsbD 7 = lclk := by
  subst hw
  refine ⟨?_, ?_, BitVec.eq_of_getLsbD_eq fun i hi => ?_, ?_, ?_, ?_⟩
  case refine_3 =>
    have hbusy : ¬ 2 + i < 1 := by omega
    have hhalted : ¬ 2 + i - 1 < 1 := by omega
    have hplace : 2 + i - 1 - 1 = i := by omega
    simp only [BitVec.getLsbD_extractLsb', BitVec.getLsbD_append, hi, hbusy, hhalted, hplace, decide_true,
      Bool.true_and, if_true, if_false]
  all_goals simp only [BitVec.getLsbD_append]; simp

/-- Settles O40: the fields of STATUS, and the ports as they are wired. -/
theorem statusWordLayout : Obligations.StatusWordLayout := by
  refine ⟨fun s => statusWord_fields _ _ _ _ _ _ rfl, by decide, by decide, fun s => ?_⟩
  have hbusy : s.busy = decide (s.sqPhase ≠ .idle) := by unfold State.busy; cases s.sqPhase <;> rfl
  have hready : s.ready = (decide (s.sqPhase = .idle) && !s.halted) := by simp [State.ready, hbusy]
  exact ⟨rfl, rfl, rfl, rfl, rfl, hbusy, hready, rfl, rfl, rfl⟩

/-- Settles O41: the state after reset holds the values of R251. -/
theorem resetStateIsReady : Obligations.ResetStateIsReady :=
  ⟨rfl, rfl, rfl, rfl, rfl, rfl, rfl, rfl, rfl, rfl, rfl, rfl, rfl⟩

end Sys2Proof.Machine
end

section
/-! PROOFS. The pin event history (20_memory R56). -/

namespace Sys2Proof.Machine

open Sys2Proof

/-- A rejected write reaches the bound: it is recorded before the three writes of cleanup (60_exceptions R211, R213). Reset
and any other halt append cleanup's writes alone, an accepted write itself, and the other effects nothing. -/
theorem Effect.events_append {p : Inputs} {s t : State} (h : Effect p s t) :
    ∃ new, t.events = s.events ++ new ∧ new.length ≤ 4 := by
  cases h with
  | reset _ ht => exact ⟨_, ht ▸ s.resetBlock_events, by simp⟩
  | halt _ cause _ ht => exact ⟨_, ht ▸ s.raiseHalt_events cause, by simp⟩
  | reject _ q v ht => exact ⟨_, ht ▸ s.rejectWrite_events q v, by simp⟩
  | write _ q v _ ht => exact ⟨[.written q v], by simp [ht], by simp⟩
  | unchanged ht | encode _ _ _ ht | serialize _ _ _ ht | send _ _ _ ht => exact ⟨[], by simp [ht], by simp⟩

/-- Settles O50, effect by effect: reading the sample leaves the history alone. -/
theorem historyOnlyGrows : Obligations.HistoryOnlyGrows := by
  intro s t hstep
  simpa using (step_effect hstep).events_append

end Sys2Proof.Machine
end

section
/-! PROOFS. The command word (30_encoding R72 to R77, R80): each value of the 3-bit field selects one entry, and a command
depends on the operand ports it uses alone. -/

namespace Sys2Proof.Machine

open Sys2Proof

/-- The four values of the field that are reserved (30_encoding R77). -/
theorem Opcode.ofBits_eq_none_iff :
    ∀ op : BitVec 3,
      Opcode.ofBits op = none ↔ op = 0b000 ∨ op = 0b101 ∨ op = 0b110 ∨ op = 0b111 := by
  decide

theorem Opcode.ofBits_eq_some_iff (op : BitVec 3) (o : Opcode) : Opcode.ofBits op = some o ↔ op = o.toBits := by
  cases o <;> revert op <;> decide

theorem decode_of_encode {p : CommandPorts} (h : p.op = 0b001) : decode p = .ok (.encode p.charIn) := by
  rw [decode, (Opcode.ofBits_eq_some_iff _ .encode).2 h]

theorem decode_of_serialize {p : CommandPorts} (h : p.op = 0b010) : decode p = .ok (.serialize p.textIn p.lenIn) := by
  rw [decode, (Opcode.ofBits_eq_some_iff _ .serialize).2 h]

theorem decode_of_send {p : CommandPorts} (h : p.op = 0b011) : decode p = .ok (.send p.frameIn p.widthIn) := by
  rw [decode, (Opcode.ofBits_eq_some_iff _ .send).2 h]

theorem decode_of_shutdown {p : CommandPorts} (h : p.op = 0b100) : decode p = .ok .shutdown := by
  rw [decode, (Opcode.ofBits_eq_some_iff _ .shutdown).2 h]

theorem decode_of_reserved {p : CommandPorts}
    (h : p.op = 0b000 ∨ p.op = 0b101 ∨ p.op = 0b110 ∨ p.op = 0b111) : decode p = .error (.reservedOpcode p.op) := by
  rw [decode, (Opcode.ofBits_eq_none_iff _).2 h]

/-- Settles O1: an entry of the map each. -/
theorem opcodeMapSelectsOneEntry : Obligations.OpcodeMapSelectsOneEntry := fun _ =>
  ⟨decode_of_encode, decode_of_serialize, decode_of_send, decode_of_shutdown, decode_of_reserved⟩

/-- Settles O2: the entries of the map on the words, whose opcodes are read off. -/
theorem sampleWordsDecode : Obligations.SampleWordsDecode :=
  ⟨decode_of_encode rfl, decode_of_serialize rfl, decode_of_send rfl, decode_of_shutdown rfl, rfl, rfl, rfl, rfl, rfl⟩

/-- Settles O3, a command each. -/
theorem decodeReadsBackEncode : Obligations.DecodeReadsBackEncode := by
  intro i
  cases i with
  | encode c => exact Sys2Proof.Laws.RoundTrip.encode c
  | serialize text len => exact Sys2Proof.Laws.RoundTrip.serialize text len
  | send f w => exact Sys2Proof.Laws.RoundTrip.send f w
  | shutdown => exact Sys2Proof.Laws.RoundTrip.shutdown

theorem decode_congr {p q : CommandPorts} (hop : p.op = q.op) (hchar : p.op = 0b001 → p.charIn = q.charIn)
    (htext : p.op = 0b010 → p.textIn = q.textIn ∧ p.lenIn = q.lenIn)
    (hframe : p.op = 0b011 → p.frameIn = q.frameIn ∧ p.widthIn = q.widthIn) : decode p = decode q := by
  cases ho : Opcode.ofBits p.op with
  | none =>
    have hp := (Opcode.ofBits_eq_none_iff _).1 ho
    rw [decode_of_reserved hp, decode_of_reserved (hop ▸ hp), hop]
  | some o =>
    have hp := (Opcode.ofBits_eq_some_iff _ _).1 ho
    cases o with
    | encode => rw [decode_of_encode hp, decode_of_encode (hop ▸ hp), hchar hp]
    | serialize =>
      obtain ⟨htextIn, hlenIn⟩ := htext hp
      rw [decode_of_serialize hp, decode_of_serialize (hop ▸ hp), htextIn, hlenIn]
    | send =>
      obtain ⟨hframeIn, hwidthIn⟩ := hframe hp
      rw [decode_of_send hp, decode_of_send (hop ▸ hp), hframeIn, hwidthIn]
    | shutdown => rw [decode_of_shutdown hp, decode_of_shutdown (hop ▸ hp)]

/-- Settles O9: the accepting step reads the ports through the decoder alone. -/
theorem unusedOperandPortsIgnored : Obligations.UnusedOperandPortsIgnored := by
  intro p q hop hchar htext hframe s
  rw [State.accept, decode_congr hop hchar htext hframe, State.accept]

end Sys2Proof.Machine
end

section
/-! PROOFS. What one step does with the command ports and with `pin_ok` (30_encoding R76, R78, R80, 70_reset_and_hazards
R262, R263). -/

namespace Sys2Proof.Machine

open Sys2Proof

/-! ### An accepted command -/

theorem State.raiseHalt_eq_haltedWith (cause : HaltCause) (s : State) : s.raiseHalt cause = haltedWith cause s :=
  State.raiseHalt_eq cause s

/-- Settles O6: the step is the reaction to its sample on the state once that is read. -/
theorem stepRunsDecodedCommand : Obligations.StepRunsDecodedCommand := by
  intro s i ha hd
  exact State.react_of_accepts (by rw [State.consume_accepts, ha]) hd

theorem State.react_of_reserved {p : Inputs} {s : State} (ha : s.accepts p = true)
    (h : p.cmd.op = 0b000 ∨ p.cmd.op = 0b101 ∨ p.cmd.op = 0b110 ∨ p.cmd.op = 0b111) :
    s.react p = .next (haltedWith .illegalCommand s) := by
  obtain ⟨hr, hh, hab, hb, hv⟩ := (s.accepts_iff p).1 ha
  simp [State.react, State.accept, hr, hh, hab, hb, hv, decode_of_reserved h, State.raiseHalt_eq_haltedWith]

/-- Settles O10: the decoder rejects the word, and the step raises the halt. -/
theorem reservedOpcodeHalts : Obligations.ReservedOpcodeHalts := by
  intro s ha hop
  exact State.react_of_reserved (by rw [State.consume_accepts, ha]) hop

/-- A step after `present` reads the command presented, on the state made READY. -/
theorem step_present (c : CommandPorts) (s : State) :
    step (s.present c) =
      State.react { cmdValid := true, cmd := c } { s with inputs := s.inputs.tail, halted := false, sqPhase := .idle } :=
  rfl

theorem decodeTableWord_eq_some {nbits w : Nat} {i : Instr} (h : decodeTableWord nbits w = some i) :
    decode (commandWord nbits w) = .ok i := by
  unfold decodeTableWord at h
  cases hd : decode (commandWord nbits w) with
  | ok j => rw [hd] at h; exact congrArg Except.ok (Option.some.inj h)
  | error e => rw [hd] at h; cases h

/-- Settles O7: the READY state accepts the word. -/
theorem fetchWordRunsNext : Obligations.FetchWordRunsNext := by
  intro s nbits w i hw
  rw [State.withFetchWord, step_present]
  exact State.react_of_accepts rfl (decodeTableWord_eq_some hw)

/-! ### A command that is not accepted -/

/-- Where a command stands on the ports and is not accepted, an event of higher priority decides the step (60_exceptions
R223). -/
theorem State.react_of_not_accepts {p : Inputs} {s : State} (h : s.accepts p = false) :
    s.react p = s.react { p with cmdValid := false } := by
  cases hv : p.cmdValid with
  | false => simp [State.react, hv]
  | true =>
    have hfirst : p.rst = true ∨ s.halted = true ∨ p.abortReq = true ∨ s.busy = true := by
      by_contra! hnone
      obtain ⟨hr, hh, hab, hb⟩ := hnone
      simp [State.accepts, hr, hh, hab, hb, hv] at h
    rcases hfirst with hr | hh | hab | hb
    · simp [State.react, hr]
    · simp [State.react, hh]
    · simp [State.react, hab]
    · simp [State.react, hb]

/-- Settles O8: reading the sample changes nothing that acceptance depends on. -/
theorem unacceptedCommandHasNoEffect : Obligations.UnacceptedCommandHasNoEffect := by
  intro s h
  exact State.react_of_not_accepts (by rw [State.consume_accepts, h])

/-- Settles O15: the busy branch comes before the one that reads the command. -/
theorem busyStepIgnoresCommandPorts : Obligations.BusyStepIgnoresCommandPorts := by
  intro s p c v hb
  simp [State.react, hb]

/-- Settles O16: each of the four conditions keeps the step out of the sequencer's branch. -/
theorem pinOkReadOnlyBySequencer : Obligations.PinOkReadOnlyBySequencer := by
  intro s p ok h
  rcases h with hr | hh | hab | hb
  · simp [State.react, hr]
  · simp [State.react, hh]
  · simp [State.react, hab]
  · simp [State.react, hb]

end Sys2Proof.Machine
end

section
/-! SUPPORT. The reader of the assembler on what the disassembler writes, operand by operand and line by line
(30_encoding R82, R83). -/

namespace Sys2Proof.Machine

open Sys2Proof

/-! ### Characters -/

theorem toNat_ofNat_of_isByte {n : Nat} (h : isByte (Char.ofNat n) = true) : (Char.ofNat n).toNat = n := by
  rw [Char.toNat_ofNat, ite_eq_left_iff]
  intro hinvalid
  simp [isByte, Char.toNat_ofNat, hinvalid] at h

theorem ofNat_ne_of_isByte {n : Nat} {c : Char} (h : isByte (Char.ofNat n) = true) (hne : n ≠ c.toNat) :
    Char.ofNat n ≠ c := by
  rintro rfl
  exact hne (toNat_ofNat_of_isByte h).symm

theorem hexDigit_hexChar {d : Nat} (hd : d < 16) : hexDigit (hexChar d) = some d :=
  (by decide : ∀ d : Fin 16, hexDigit (hexChar d) = some d.val) ⟨d, hd⟩

theorem isByte_hexChar {d : Nat} (hd : d < 16) : isByte (hexChar d) = true :=
  (by decide : ∀ d : Fin 16, isByte (hexChar d) = true) ⟨d, hd⟩

/-! ### Numbers -/

/-- The digits of `v` add its last `n` hexadecimal places to what has been read. -/
theorem readDigits_hexChars (v n acc : Nat) (rest : List Char) :
    readDigits 16 hexDigit acc (hexChars v n ++ rest) = readDigits 16 hexDigit (acc * 16 ^ n + v % 16 ^ n) rest := by
  induction n generalizing v rest with
  | zero => simp [hexChars, Nat.mod_one]
  | succ n ih =>
    have hlast : hexDigit (hexChar (v % 16)) = some (v % 16) := hexDigit_hexChar (Nat.mod_lt _ (by decide))
    have hsplit : v % 16 ^ (n + 1) = v / 16 % 16 ^ n * 16 + v % 16 := by
      rw [pow_succ', Nat.mod_mul]
      ring
    simp only [hexChars, List.append_assoc, List.singleton_append, ih, readDigits, hlast, hsplit]
    ring_nf

theorem exists_hexChars_succ (v n : Nat) : ∃ d < 16, ∃ cs, hexChars v (n + 1) = hexChar d :: cs := by
  induction n generalizing v with
  | zero => exact ⟨v % 16, Nat.mod_lt _ (by decide), [], rfl⟩
  | succ n ih =>
    obtain ⟨d, hd, cs, hcs⟩ := ih (v / 16)
    exact ⟨d, hd, cs ++ [hexChar (v % 16)], by rw [hexChars, hcs, List.cons_append]⟩

theorem isByte_of_mem_hexChars {v n : Nat} {c : Char} (hc : c ∈ hexChars v n) : isByte c = true := by
  induction n generalizing v with
  | zero => cases hc
  | succ n ih =>
    rcases List.mem_append.1 hc with hc | hc
    · exact ih hc
    · rw [List.mem_singleton.1 hc]
      exact isByte_hexChar (Nat.mod_lt _ (by decide))

/-- A number that fits in its digits is read back, where no digit follows. -/
theorem readHex_hexChars {v n : Nat} (hv : v < 16 ^ (n + 1)) {rest : List Char}
    (hrest : readDigits 16 hexDigit v rest = (v, rest)) :
    readHex (['0', 'x'] ++ hexChars v (n + 1) ++ rest) = some (v, rest) := by
  obtain ⟨d, hd, cs, hcs⟩ := exists_hexChars_succ v n
  have hread : readDigits 16 hexDigit 0 (hexChars v (n + 1) ++ rest) = (v, rest) := by
    rw [readDigits_hexChars, Nat.mod_eq_of_lt hv, Nat.zero_mul, Nat.zero_add, hrest]
  rw [hcs] at hread ⊢
  simpa [readHex, readNumber, readDigits, hexDigit_hexChar hd] using hread

/-! ### Operands -/

theorem readCharop_charChars (c : Byte) : readCharop (charChars c) = some (c.toNat, []) := by
  have hc := c.isLt
  unfold charChars
  split
  · next h =>
    obtain ⟨hbyte, hquote⟩ := Bool.and_eq_true_iff.1 h
    have hne : Char.ofNat c.toNat ≠ '\'' :=
      ofNat_ne_of_isByte hbyte fun hc' => bne_iff_ne.1 hquote (BitVec.eq_of_toNat_eq hc')
    simp [readCharop, hbyte, hne, toNat_ofNat_of_isByte hbyte]
  · have hhex : readHex (['0', 'x'] ++ hexChars c.toNat 2 ++ []) = some (c.toNat, []) :=
      readHex_hexChars (by omega) rfl
    simpa [readCharop] using hhex

/-- The characters a string can hold (30_encoding R82). -/
theorem stringChars_eq_some {t : List Nat} {cs : List Char} (h : stringChars t = some cs) :
    cs = '"' :: t.map Char.ofNat ++ ['"'] ∧ ∀ n ∈ t, isByte (Char.ofNat n) = true ∧ n ≠ 0x22 := by
  unfold stringChars at h
  split at h
  · next hall => exact ⟨(Option.some.inj h).symm, by simpa using hall⟩
  · cases h

theorem readStringBody_map_ofNat {t : List Nat} (ht : ∀ n ∈ t, isByte (Char.ofNat n) = true ∧ n ≠ 0x22) :
    readStringBody (t.map Char.ofNat ++ ['"']) = some (t, []) := by
  induction t with
  | nil => rfl
  | cons n t ih =>
    obtain ⟨⟨hbyte, hquote⟩, ht⟩ := List.forall_mem_cons.1 ht
    have hne : Char.ofNat n ≠ '"' := ofNat_ne_of_isByte hbyte hquote
    simp [readStringBody, hne, hbyte, ih ht, toNat_ofNat_of_isByte hbyte]

theorem readStrop_stringChars {t : List Nat} {cs : List Char} (h : stringChars t = some cs) :
    readStrop cs = some (t, []) := by
  obtain ⟨rfl, ht⟩ := stringChars_eq_some h
  exact readStringBody_map_ofNat ht

/-- The 64 widths, each written in decimal. -/
theorem readWidthop_widthChars : ∀ w : BitVec 6, readWidthop (widthChars w) = some (w.toNat, []) := by decide

theorem skipBlanks_widthChars : ∀ w : BitVec 6, skipBlanks (' ' :: widthChars w) = widthChars w := by decide

theorem readSend_written (f : Frame) (w : BitVec 6) :
    readSend (['0', 'x'] ++ hexChars f.toNat 12 ++ ([',', ' '] ++ widthChars w)) =
      some (.send (.literal f.toNat) (w.toNat : Int), []) := by
  have hhex : readHex (['0', 'x'] ++ hexChars f.toNat 12 ++ ([',', ' '] ++ widthChars w)) =
      some (f.toNat, [',', ' '] ++ widthChars w) :=
    readHex_hexChars f.isLt rfl
  have hframe : readFrameop (['0', 'x'] ++ hexChars f.toNat 12 ++ ([',', ' '] ++ widthChars w)) =
      some (.literal f.toNat, [',', ' '] ++ widthChars w) := by
    rw [readFrameop, if_neg (by simp [isUpperLetter]), hhex, Option.map_some]
  have hcomma : skipBlanks ([',', ' '] ++ widthChars w) = ',' :: ' ' :: widthChars w := rfl
  simp only [readSend, hframe, hcomma, skipBlanks_widthChars, readWidthop_widthChars, Option.map_some]

/-! ### The characters a SERIALIZE presents (30_encoding R82, log 14) -/

theorem length_textCodes (text : Frame) (len : BitVec 4) : (textCodes text len).length = len.toNat := by
  have hlen := len.isLt
  simp [textCodes]
  omega

theorem lt_of_mem_textCodes {text : Frame} {len : BitVec 4} {n : Nat} (hn : n ∈ textCodes text len) : n < 256 := by
  rcases List.mem_append.1 (List.mem_of_mem_take hn) with hlane | hspace
  · obtain ⟨b, -, rfl⟩ := List.mem_map.1 hlane
    exact b.isLt
  · rw [List.eq_of_mem_replicate hspace]
    decide

theorem getD_textCodes (text : Frame) (len : BitVec 4) (i : Fin 6) :
    (textCodes text len).getD i 0 = if i.val < len.toNat then (lane text i).toNat else 0 := by
  rw [textCodes, List.getD_eq_getElem?_getD, List.getElem?_take]
  by_cases hi : i.val < len.toNat
  · rw [if_pos hi, if_pos hi]
    fin_cases i <;> rfl
  · rw [if_neg hi, if_neg hi]
    rfl

theorem append_lanes (text : Frame) :
    lane text 0 ++ lane text 1 ++ lane text 2 ++ lane text 3 ++ lane text 4 ++ lane text 5 = text := by
  simp only [lane]
  rw [BitVec.extractLsb'_append_extractLsb'_eq_extractLsb' (by rfl),
    BitVec.extractLsb'_append_extractLsb'_eq_extractLsb' (by rfl),
    BitVec.extractLsb'_append_extractLsb'_eq_extractLsb' (by rfl),
    BitVec.extractLsb'_append_extractLsb'_eq_extractLsb' (by rfl),
    BitVec.extractLsb'_append_extractLsb'_eq_extractLsb' (by rfl)]
  exact BitVec.extractLsb'_eq_self

/-- The lanes beyond the length are the zeros the assembler fills in. -/
theorem textPort_textCodes {text : Frame} {len : BitVec 4} (h : ∀ l : Fin 6, len.toNat ≤ l.val → lane text l = 0) :
    textPort (textCodes text len) = text := by
  have hlane (i : Fin 6) : BitVec.ofNat 8 ((textCodes text len).getD i 0) = lane text i := by
    rw [getD_textCodes]
    split
    · rw [BitVec.ofNat_toNat, BitVec.setWidth_eq]
    · next hi => rw [h i (by omega)]; rfl
  calc textPort (textCodes text len)
      = lane text 0 ++ lane text 1 ++ lane text 2 ++ lane text 3 ++ lane text 4 ++ lane text 5 := by
        rw [← hlane 0, ← hlane 1, ← hlane 2, ← hlane 3, ← hlane 4, ← hlane 5]; rfl
    _ = text := append_lanes text

/-! ### Lines and programs -/

theorem splitLines_append_newline {l : List Char} (hl : '\n' ∉ l) (acc cs : List Char) :
    splitLines acc (l ++ '\n' :: cs) = (splitLines [] cs).map fun ls => (acc.reverse ++ l) :: ls := by
  induction l generalizing acc with
  | nil => simp [splitLines]
  | cons c l ih =>
    obtain ⟨hc, hl⟩ := List.ne_and_not_mem_of_not_mem_cons hl
    simp [splitLines, hc.symm, ih hl]

/-- A command begins with a letter of its mnemonic. -/
theorem exists_upper_of_readCommand {l : List Char} {r : HostCommand × List Char} (h : readCommand l = some r) :
    ∃ c cs, l = c :: cs ∧ isUpperLetter c = true := by
  cases l with
  | nil => cases h
  | cons c cs =>
    refine ⟨c, cs, rfl, ?_⟩
    by_contra hc
    simp [readCommand, hc] at h

theorem readLine_of_readCommand {l : List Char} {c : HostCommand} (h : readCommand l = some (c, [])) :
    readLine l = .ok (some c) := by
  obtain ⟨x, xs, rfl, hx⟩ := exists_upper_of_readCommand h
  have hblank : isBlank x = false := by
    rw [isBlank, Bool.or_eq_false_iff, beq_eq_false_iff_ne, beq_eq_false_iff_ne]
    constructor <;> rintro rfl <;> cases hx
  have hcomment : x ≠ '#' := by
    rintro rfl
    cases hx
  have hskip : skipBlanks (x :: xs) = x :: xs := by simp [skipBlanks, hblank]
  have hstart : lineEnds (x :: xs) = false := by simp [lineEnds, hskip, hcomment]
  have hend : lineEnds [] = true := rfl
  simp [readLine, hstart, hskip, h, hend]

theorem readProgram_line {l : List Char} {c : HostCommand} (hl : '\n' ∉ l) (hr : readLine l = .ok (some c))
    (hw : c.wellFormed = true) : readProgram (l ++ ['\n']) = .ok [c] := by
  have hsplit : splitLines [] (l ++ ['\n']) = some [l] := splitLines_append_newline hl [] []
  simp [readProgram, hsplit, readLines, hr, hw]

end Sys2Proof.Machine
end

section
/-! PROOFS. The assembler reads back what the disassembler writes (30_encoding R82, R83). The written line is a line the
grammar reads as `asLine`, and `asLine` assembles to the command. -/

namespace Sys2Proof.Machine

open Sys2Proof

/-- The line of a host program that a command is written as. -/
def asLine : Instr → HostCommand
  | .encode c => .encode c.toNat
  | .serialize text len => .serialize (textCodes text len)
  | .send f w => .send (.literal f.toNat) (w.toNat : Int)
  | .shutdown => .shutdown

/-! ### Reading the written line -/

theorem readCommand_encode (args : List Char) :
    readCommand (['E', 'N', 'C', 'O', 'D', 'E', ' '] ++ args) =
      (readCharop (skipBlanks args)).map fun r => (.encode r.1, r.2) := rfl

theorem readCommand_serialize (args : List Char) :
    readCommand (['S', 'E', 'R', 'I', 'A', 'L', 'I', 'Z', 'E', ' '] ++ args) =
      (readStrop (skipBlanks args)).map fun r => (.serialize r.1, r.2) := rfl

theorem readCommand_send (args : List Char) :
    readCommand (['S', 'E', 'N', 'D', ' '] ++ args) = readSend (skipBlanks args) := rfl

theorem skipBlanks_charChars (c : Byte) : skipBlanks (charChars c) = charChars c := by
  unfold charChars; split <;> rfl

theorem readCommand_of_writeInstr {i : Instr} {line : List Char} (h : writeInstr i = some line) :
    readCommand line = some (asLine i, []) := by
  cases i with
  | encode c =>
    obtain rfl := Option.some.inj h
    rw [readCommand_encode, skipBlanks_charChars, readCharop_charChars]
    rfl
  | serialize text len =>
    obtain ⟨cs, hcs, rfl⟩ := Option.map_eq_some_iff.1 h
    have hskip : skipBlanks cs = cs := by rw [(stringChars_eq_some hcs).1]; rfl
    rw [readCommand_serialize, hskip, readStrop_stringChars hcs]
    rfl
  | send f w =>
    obtain rfl := Option.some.inj h
    calc _ = readSend (['0', 'x'] ++ hexChars f.toNat 12 ++ ([',', ' '] ++ widthChars w)) := by
          rw [List.append_assoc]; exact readCommand_send _
      _ = _ := readSend_written f w
  | shutdown =>
    obtain rfl := Option.some.inj h
    rfl

/-! ### The written line is one line -/

theorem isByte_of_mem_charChars {c : Byte} {x : Char} (hx : x ∈ charChars c) : isByte x = true := by
  unfold charChars at hx
  split at hx
  · next h =>
    have hbyte := (Bool.and_eq_true_iff.1 h).1
    obtain rfl | rfl | rfl : x = '\'' ∨ x = Char.ofNat c.toNat ∨ x = '\'' := by simpa using hx
    exacts [rfl, hbyte, rfl]
  · rcases List.mem_append.1 hx with hx | hx
    · obtain rfl | rfl : x = '0' ∨ x = 'x' := by simpa using hx
      all_goals rfl
    · exact isByte_of_mem_hexChars hx

theorem isByte_of_mem_stringChars {t : List Nat} {cs : List Char} (h : stringChars t = some cs) {x : Char}
    (hx : x ∈ cs) : isByte x = true := by
  obtain ⟨rfl, ht⟩ := stringChars_eq_some h
  rcases (by simpa using hx : x = '"' ∨ (∃ n ∈ t, Char.ofNat n = x) ∨ x = '"') with rfl | ⟨n, hn, rfl⟩ | rfl
  exacts [rfl, (ht n hn).1, rfl]

theorem all_isByte_widthChars : ∀ w : BitVec 6, (widthChars w).all isByte = true := by decide

theorem all_isByte_of_writeInstr {i : Instr} {line : List Char} (h : writeInstr i = some line) :
    line.all isByte = true := by
  cases i with
  | encode c =>
    obtain rfl := Option.some.inj h
    have harg : (charChars c).all isByte = true := List.all_eq_true.2 fun x => isByte_of_mem_charChars
    rw [List.all_append, harg]
    rfl
  | serialize text len =>
    obtain ⟨cs, hcs, rfl⟩ := Option.map_eq_some_iff.1 h
    have harg : cs.all isByte = true := List.all_eq_true.2 fun x => isByte_of_mem_stringChars hcs
    rw [List.all_append, harg]
    rfl
  | send f w =>
    obtain rfl := Option.some.inj h
    have hframe : (hexChars f.toNat 12).all isByte = true := List.all_eq_true.2 fun x => isByte_of_mem_hexChars
    rw [List.all_append, List.all_append, List.all_append, hframe, all_isByte_widthChars]
    rfl
  | shutdown =>
    obtain rfl := Option.some.inj h
    rfl

theorem newline_notMem_of_writeInstr {i : Instr} {line : List Char} (h : writeInstr i = some line) : '\n' ∉ line := by
  intro hmem
  cases List.all_eq_true.1 (all_isByte_of_writeInstr h) '\n' hmem

/-! ### Assembling the line -/

theorem wellFormed_asLine (i : Instr) : (asLine i).wellFormed = true := by
  cases i with
  | encode c => exact Instr.wellFormed_all (.encode c)
  | send f w => exact Instr.wellFormed_all (.send f w)
  | shutdown => rfl
  | serialize text len =>
    have hlen := len.isLt
    have hcodes : (textCodes text len).all charSpelled = true :=
      List.all_eq_true.2 fun n hn => decide_eq_true (lt_of_mem_textCodes hn)
    simp only [asLine, HostCommand.wellFormed, textSpelled, length_textCodes, hcodes, Bool.and_true, decide_eq_true_eq]
    omega

theorem assembleLine_asLine (out : Frame) {i : Instr}
    (hshort : ∀ text len, i = .serialize text len → ∀ l : Fin 6, len.toNat ≤ l.val → lane text l = 0) :
    assembleLine out (asLine i) = .ok i := by
  unfold assembleLine
  rw [if_pos (wellFormed_asLine i)]
  cases i with
  | encode c => simp [asLine]
  | serialize text len => simp [asLine, length_textCodes, textPort_textCodes (hshort text len rfl)]
  | send f w => simp [asLine, frameValue, BitVec.ofInt_natCast]
  | shutdown => rfl

/-- Settles O4: the line reads as `asLine`, which assembles to the command. -/
theorem assemblerReadsBackDisassembly : Obligations.AssemblerReadsBackDisassembly := by
  intro i line hline hshort
  have hread : readLine line = .ok (some (asLine i)) := readLine_of_readCommand (readCommand_of_writeInstr hline)
  exact ⟨asLine i, readProgram_line (newline_notMem_of_writeInstr hline) hread (wellFormed_asLine i),
    fun out => assembleLine_asLine out hshort⟩

end Sys2Proof.Machine
end

section
/-! PROOFS. The boundary refuses what no port can express (30_encoding R79). -/

namespace Sys2Proof.Machine

open Sys2Proof

theorem assembleLine_of_not_wellFormed {out : Frame} {c : HostCommand} (h : ¬ c.wellFormed = true) :
    assembleLine out c = .error .notSpelled :=
  if_neg h

theorem charSpelled_iff (c : Nat) : charSpelled c = true ↔ c < 256 := decide_eq_true_iff

theorem textSpelled_iff (t : List Nat) : textSpelled t = true ↔ t.length ≤ 15 ∧ ∀ c ∈ t, c < 256 := by
  simp [textSpelled, charSpelled_iff]

theorem widthSpelled_iff (w : Int) : widthSpelled w = true ↔ 0 ≤ w ∧ w < 64 := by
  simp [widthSpelled]

theorem literal_spelled_iff (v : Nat) : (FrameOperand.literal v).spelled = true ↔ v < 2 ^ 48 := decide_eq_true_iff

theorem assembleLine_serialize {out : Frame} {t : List Nat} (h : textSpelled t = true) :
    assembleLine out (.serialize t) = .ok (.serialize (textPort t) (BitVec.ofNat 4 t.length)) :=
  if_pos h

/-- A length that `len_in` can carry is 6 there only if it is 6. -/
theorem lenIn_eq_six_iff {n : Nat} (h : n ≤ 15) : BitVec.ofNat 4 n = 6 ↔ n = 6 := by
  rw [← BitVec.toNat_inj, BitVec.toNat_ofNat, Nat.mod_eq_of_lt (by omega)]
  rfl

/-- Settles O5: an operand out of its range fails its check; a text in range is presented, and a length other than 6
reaches the halt of SERIALIZE. -/
theorem boundaryRefusesUnspellable : Obligations.BoundaryRefusesUnspellable := by
  refine ⟨fun out ch hch => ?_, fun out t ht => ?_, fun out v w hv => ?_, fun out f w hw => ?_, fun out t hlen ht => ?_⟩
  · refine assembleLine_of_not_wellFormed fun hwf => ?_
    exact absurd ((charSpelled_iff ch).1 hwf) (by omega)
  · refine assembleLine_of_not_wellFormed fun hwf => ?_
    obtain ⟨hlen, hall⟩ := (textSpelled_iff t).1 hwf
    rcases ht with hlong | ⟨ch, hmem, hch⟩
    · omega
    · exact absurd (hall ch hmem) (by omega)
  · refine assembleLine_of_not_wellFormed fun hwf => ?_
    obtain ⟨hframe, -⟩ := Bool.and_eq_true_iff.1 hwf
    exact absurd ((literal_spelled_iff v).1 hframe) (by omega)
  · refine assembleLine_of_not_wellFormed fun hwf => ?_
    obtain ⟨-, hwidth⟩ := Bool.and_eq_true_iff.1 hwf
    have hrange := (widthSpelled_iff w).1 hwidth
    omega
  · refine ⟨textPort t, assembleLine_serialize ((textSpelled_iff t).2 ⟨hlen, ht⟩), fun hsix s => ?_⟩
    rw [exec_serialize, if_neg (mt (lenIn_eq_six_iff hlen).1 hsix), State.raiseHalt_eq_haltedWith]

end Sys2Proof.Machine
end

section
/-! PROOFS. The host holds what it has presented (30_encoding R76, 44_system R186). -/

namespace Sys2Proof.Machine

open Sys2Proof

/-- The sample of a step is that of what stands on the ports. -/
theorem HostRun.sample_eq_ok {ch : HostChoice} {h : HostRun} {p : Inputs} (hs : h.sample ch = .ok p) :
    ∃ c, h.onPorts ch = .ok c ∧ p = ch.sample c := by
  unfold HostRun.sample at hs
  cases hc : h.onPorts ch with
  | error r => rw [hc] at hs; cases hs
  | ok c => rw [hc] at hs; cases hs; exact ⟨c, rfl, rfl⟩

theorem HostRun.sample_of_held {ch : HostChoice} {h : HostRun} {c : CommandPorts} (hh : h.held = some c) :
    h.sample ch = .ok (ch.sample (some c)) := by
  rw [HostRun.sample, HostRun.onPorts_of_held hh]
  rfl

/-- Settles O51: a command not accepted is held, and what is held stands on the ports. -/
theorem hostHoldsCommandUnchanged : Obligations.HostHoldsCommandUnchanged := by
  intro h h' ch ch' p hp hvalid hacc hstep
  obtain ⟨c, hc, rfl⟩ := HostRun.sample_eq_ok hp
  obtain ⟨d, hd, -, -, hcases⟩ := HostRun.step_next hstep
  obtain rfl : c = d := Except.ok.inj (hc.symm.trans hd)
  obtain ⟨c, rfl⟩ : ∃ c', c = some c' := Option.isSome_iff_exists.1 (by simpa using hvalid)
  rcases hcases with ⟨haccepted, -, -⟩ | ⟨-, hpending, hheld⟩
  · rw [hacc] at haccepted
    cases haccepted
  · exact ⟨hpending, ch'.sample (some c), HostRun.sample_of_held hheld, by simp, by simp⟩

end Sys2Proof.Machine
end

section
/-! PROOFS. The encoder and ENCODE (41_encoder): each supported character has its one byte, and on the supported bytes a
segment table keeps apart what R102 and R103 keep apart. -/

namespace Sys2Proof.Machine

open Sys2Proof

/-! ### The bytes of the supported characters -/

/-- The byte code of a supported character (41_encoder R100). -/
def charOf : Supported → Byte
  | .d0 => 0x30
  | .d1 => 0x31
  | .d2 => 0x32
  | .d3 => 0x33
  | .d4 => 0x34
  | .d5 => 0x35
  | .d6 => 0x36
  | .d7 => 0x37
  | .d8 => 0x38
  | .d9 => 0x39
  | .letterH => 0x48
  | .letterF => 0x46
  | .letterP => 0x50
  | .space => 0x20

theorem supportedOf_charOf (g : Supported) : supportedOf (charOf g) = some g := by
  cases g <;> rfl

theorem supportedOf_eq_some_iff {c : Byte} {g : Supported} : supportedOf c = some g ↔ c = charOf g := by
  constructor
  · intro h
    unfold supportedOf at h
    split at h <;> cases h
    all_goals next hc => exact BitVec.eq_of_toNat_eq hc
  · rintro rfl
    exact supportedOf_charOf g

theorem supportedOf_eq_none_iff {c : Byte} : supportedOf c = none ↔ ∀ g, c ≠ charOf g := by
  simp only [Option.eq_none_iff_forall_ne_some, ne_eq, supportedOf_eq_some_iff]

/-- Settles O17: the table of R100 pairs each supported character with its byte. -/
theorem supportedCharacters : Obligations.SupportedCharacters := by
  intro c g
  rw [supportedOf_eq_some_iff]
  cases g <;> simp [charOf]

/-! ### The codes of a segment table -/

theorem encWith_of_some (t : SegTable) {c : Byte} {g : Supported} (h : supportedOf c = some g) :
    encWith t c = t.code g := by
  rw [encWith, h]

theorem encWith_of_none (t : SegTable) {c : Byte} (h : supportedOf c = none) : encWith t c = t.sentinel := by
  rw [encWith, h]

/-- SENTINEL is the code of no supported character (41_encoder R103). -/
theorem encWith_eq_sentinel_iff (t : SegTable) (c : Byte) : encWith t c = t.sentinel ↔ supportedOf c = none := by
  refine ⟨fun h => ?_, encWith_of_none t⟩
  cases hc : supportedOf c with
  | none => rfl
  | some g => exact absurd ((encWith_of_some t hc).symm.trans h) (t.code_ne_sentinel g)

/-- SEG_TABLE is injective on SUPPORTED (41_encoder R102), and a supported character has one byte. -/
theorem eq_of_encWith_eq (t : SegTable) {c1 c2 : Byte} (h1 : supportedOf c1 ≠ none) (h2 : supportedOf c2 ≠ none)
    (h : encWith t c1 = encWith t c2) : c1 = c2 := by
  obtain ⟨g1, hg1⟩ := Option.ne_none_iff_exists'.1 h1
  obtain ⟨g2, hg2⟩ := Option.ne_none_iff_exists'.1 h2
  rw [encWith_of_some t hg1, encWith_of_some t hg2] at h
  obtain rfl := t.code_injective g1 g2 h
  rw [supportedOf_eq_some_iff.1 hg1, supportedOf_eq_some_iff.1 hg2]

/-- R109 for every segment table: an unsupported byte shares its code with the unsupported bytes alone. -/
theorem encWith_eq_iff (t : SegTable) (c1 c2 : Byte) :
    encWith t c1 = encWith t c2 ↔ c1 = c2 ∨ (supportedOf c1 = none ∧ supportedOf c2 = none) := by
  constructor
  · intro h
    by_cases h1 : supportedOf c1 = none
    · have h2 : encWith t c2 = t.sentinel := h.symm.trans (encWith_of_none t h1)
      exact .inr ⟨h1, (encWith_eq_sentinel_iff t c2).1 h2⟩
    · have h2 : supportedOf c2 ≠ none := fun h2 =>
        h1 ((encWith_eq_sentinel_iff t c1).1 (h.trans (encWith_of_none t h2)))
      exact .inl (eq_of_encWith_eq t h1 h2 h)
  · rintro (rfl | ⟨h1, h2⟩)
    · rfl
    · rw [encWith_of_none t h1, encWith_of_none t h2]

/-- Settles O19, of the table of this build; the colon and the small h, both unsupported, share the sentinel. -/
theorem encoderInjectiveUpToSentinel : Obligations.EncoderInjectiveUpToSentinel :=
  ⟨encWith_eq_iff Config.segTable, fun c => (encWith_eq_sentinel_iff Config.segTable c).symm,
    0x3A, 0x68, by decide, (encWith_eq_iff Config.segTable _ _).2 (.inr ⟨rfl, rfl⟩)⟩

/-- Settles O18: the 14 codes are read off REF, and a byte that is none of the 14 characters is unsupported. -/
theorem refMeetsItsConstraints : Obligations.RefMeetsItsConstraints := by
  refine ⟨by decide, by decide, by decide, fun c hc => ?_⟩
  have hnone : supportedOf c = none := by
    rw [supportedOf_eq_none_iff]
    rintro g rfl
    cases g <;> exact hc (by decide)
  exact encWith_of_none Config.ref hnone

/-! ### The command -/

/-- Settles O20: the meaning of ENCODE writes CODE alone (41_encoder R107). -/
theorem encodeWritesCode : Obligations.EncodeWritesCode := fun _ _ => rfl

end Sys2Proof.Machine
end

section
/-! PROOFS. The serializer and SERIALIZE (42_serializer): a 48-bit value is its six lanes, and lane `i` of a frame is the
code of character `i`. -/

namespace Sys2Proof.Machine

open Sys2Proof

/-! ### The lanes of a 48-bit value -/

theorem eq_of_lane_eq {v w : Frame} (h : ∀ i, lane v i = lane w i) : v = w :=
  calc v = lane v 0 ++ lane v 1 ++ lane v 2 ++ lane v 3 ++ lane v 4 ++ lane v 5 := (append_lanes v).symm
    _ = lane w 0 ++ lane w 1 ++ lane w 2 ++ lane w 3 ++ lane w 4 ++ lane w 5 := by simp only [h]
    _ = w := append_lanes w

theorem toNat_lane (v : Frame) (i : Fin 6) : (lane v i).toNat = v.toNat / 2 ^ (40 - 8 * i.val) % 2 ^ 8 := by
  rw [lane, BitVec.extractLsb'_toNat, Nat.shiftRight_eq_div_pow]

/-- The lanes are the digits of the value in base 256, lane 0 the most significant (42_serializer R121). -/
theorem toNat_eq_sum_lanes (v : Frame) : v.toNat = ∑ i : Fin 6, (lane v i).toNat * 2 ^ (8 * (5 - i.val)) := by
  have hv := v.isLt
  simp only [Fin.sum_univ_six, toNat_lane]
  change v.toNat = v.toNat / 2 ^ 40 % 2 ^ 8 * 2 ^ 40 + v.toNat / 2 ^ 32 % 2 ^ 8 * 2 ^ 32 +
    v.toNat / 2 ^ 24 % 2 ^ 8 * 2 ^ 24 + v.toNat / 2 ^ 16 % 2 ^ 8 * 2 ^ 16 +
    v.toNat / 2 ^ 8 % 2 ^ 8 * 2 ^ 8 + v.toNat / 2 ^ 0 % 2 ^ 8 * 2 ^ 0
  omega

/-- Digit position `d` is driven by register `5 - d` (60_exceptions R237). -/
theorem lane_eq_chainRegister (v : Frame) (d : Fin 6) : lane v d = chainRegister v (5 - d) := by
  fin_cases d <;> rfl

/-! ### The lanes of a frame -/

theorem lane_serWith (t : SegTable) (text : Frame) (i : Fin 6) :
    lane (serWith t text) i = encWith t (lane text i) := by
  rw [serWith, lane_append]
  fin_cases i <;> rfl

@[simp] theorem lane_ser (text : Frame) (i : Fin 6) : lane (ser text) i = enc (lane text i) :=
  lane_serWith Config.segTable text i

/-- No value crosses between the lanes (42_serializer R125). -/
theorem ser_eq_iff {t1 t2 : Frame} : ser t1 = ser t2 ↔ ∀ i, enc (lane t1 i) = enc (lane t2 i) := by
  constructor
  · intro h i
    rw [← lane_ser, h, lane_ser]
  · intro h
    exact eq_of_lane_eq fun i => by rw [lane_ser, lane_ser, h i]

/-- Settles O24: the frame is the sum of its lanes, which are the codes. -/
theorem frameIsSumOfLanes : Obligations.FrameIsSumOfLanes := by
  intro text
  rw [toNat_eq_sum_lanes]
  simp only [lane_ser]

/-- Settles O25 lane by lane, from what the encoder keeps apart and what it does not (41_encoder R102, R109). -/
theorem serializerInjectiveOnSupported : Obligations.SerializerInjectiveOnSupported := by
  constructor
  · intro t1 t2 h1 h2 hser
    exact eq_of_lane_eq fun i => eq_of_encWith_eq Config.segTable (h1 i) (h2 i) (ser_eq_iff.1 hser i)
  · intro t1 t2 h
    exact ser_eq_iff.2 fun i => (encWith_eq_iff Config.segTable _ _).2 (h i)

/-! ### The command -/

/-- Settles O21: a length of six is the case of SERIALIZE that writes FRAME. -/
theorem serializeWritesFrame : Obligations.SerializeWritesFrame := by
  intro text s
  rw [exec_serialize, if_pos rfl]

/-- Settles O22: every other length is the case that raises the halt. -/
theorem serializeBadLengthHalts : Obligations.SerializeBadLengthHalts := by
  intro text len s hlen
  rw [exec_serialize, if_neg hlen, State.raiseHalt_eq_haltedWith]

/-- Settles O23: the top and the bottom 8 bits are lanes 0 and 5. -/
theorem serializedLanesAreCodes : Obligations.SerializedLanesAreCodes := fun text s =>
  ⟨{ s with frame := ser text }, serializeWritesFrame text s, lane_ser text 0, lane_ser text 5, lane_ser text⟩

end Sys2Proof.Machine
end

section
/-! PROOFS. What a complete SEND leaves in the chain (43_shift_bus R150, 60_exceptions R235, R237): its 48 shifts replace
the old contents, and its last write latches them because LCLK has been low since the first. -/

namespace Sys2Proof.Machine

open Sys2Proof

theorem take_sendSeq_all (f : Frame) : (sendSeq f 48).take 146 = sendSeq f 48 :=
  List.take_of_length_le (by simp [sendSeq_eq])

/-- After 48 shifts nothing of the old contents is left (60_exceptions R235). -/
theorem partialShift_full (old f : Frame) : partialShift old f 48 = f := by
  have hold : old <<< 48 = 0 := BitVec.shiftLeft_eq_zero (by decide)
  simp [partialShift, hold]

/-- The bit slots do not write LCLK (43_shift_bus R151). -/
theorem State.replay_bitSlots_lvLclk (f : Frame) (n : Nat) (s : State) :
    (s.replay (bitSlots f n)).lvLclk = s.lvLclk := by
  induction n generalizing s with
  | zero => rfl
  | succ n ih => simp [bitSlots_succ, ih]

theorem State.replay_sendSeq_chSr (f : Frame) (s : State) : (s.replay (sendSeq f 48)).chSr = f := by
  have hsr := State.replay_take_sendSeq_chSr f (k := 146) (by decide) s
  rw [take_sendSeq_all] at hsr
  exact hsr.trans (partialShift_full s.chSr f)

theorem State.replay_sendSeq_chOut (f : Frame) (s : State) : (s.replay (sendSeq f 48)).chOut = f := by
  have hsr := State.replay_sendSeq_chSr f s
  have hlow : ((s.pinWrite .lclk false).replay (bitSlots f 48)).lvLclk = false := by
    rw [State.replay_bitSlots_lvLclk, State.pinWrite_lclk_lvLclk]
  rw [sendSeq_eq, State.replay_written, State.replay_append] at hsr ⊢
  simpa [hlow] using hsr

/-- The state a complete SEND of `f` ends in shows `f`. -/
theorem State.sending_complete_chOut (s : State) (f : Frame) (ps : List Inputs) : (s.sending f 146 ps).chOut = f := by
  simp only [State.sending, take_sendSeq_all, State.replay_sendSeq_chOut]

/-- Settles O32: the latches hold the frame of the text, whose lane `d` is the code of character `d`. -/
theorem completeSendDisplaysText : Obligations.CompleteSendDisplaysText := by
  intro s text p ps rest ha hd hlen hps hin
  have hrun := runSteps_send ha hd hlen.le hps hin
  rw [hlen] at hrun
  refine ⟨s.sending (ser text) 146 rest, hrun, fun d => ⟨?_, lane_eq_chainRegister _ d⟩⟩
  rw [State.digit, State.sending_complete_chOut, lane_ser]

end Sys2Proof.Machine
end

section
/-! PROOFS. SEND, its sequence and the sequencer (43_shift_bus R140 to R151): what each write of the micro-program does
to the whole state, and what the 146 writes of one SEND leave in it. -/

namespace Sys2Proof.Machine

open Sys2Proof

/-! ### The pin writes of the micro-program, as whole next states -/

theorem State.pinWrite_data_eq (v : Level) (s : State) :
    s.pinWrite .data v = { s with lvData := v, events := s.events ++ [.written .data v] } := rfl

/-- A write that drives SCLK low moves nothing of the chain (60_exceptions R236). -/
theorem State.pinWrite_sclk_low (s : State) :
    s.pinWrite .sclk false = { s with lvSclk := false, events := s.events ++ [.written .sclk false] } := by
  apply State.ext_fields <;> simp

/-- A write that drives LCLK low moves nothing of the chain (60_exceptions R236). -/
theorem State.pinWrite_lclk_low (s : State) :
    s.pinWrite .lclk false = { s with lvLclk := false, events := s.events ++ [.written .lclk false] } := by
  apply State.ext_fields <;> simp

theorem State.pinWrite_sclk_rise {s : State} (h : s.lvSclk = false) :
    s.pinWrite .sclk true =
      { s with
        lvSclk := true, chSr := shiftIn s.chSr s.lvData, events := s.events ++ [.written .sclk true] } := by
  apply State.ext_fields <;> simp [h]

theorem State.pinWrite_lclk_rise {s : State} (h : s.lvLclk = false) :
    s.pinWrite .lclk true =
      { s with lvLclk := true, chOut := s.chSr, events := s.events ++ [.written .lclk true] } := by
  apply State.ext_fields <;> simp [h]

/-! ### The acceptance of a SEND -/

/-- Settles O26: the two widths of `exec_send`, and BUSY is one of the conditions of acceptance (30_encoding R76). -/
theorem sendAcceptanceStartsSequencer : Obligations.SendAcceptanceStartsSequencer := by
  refine ⟨fun f w s => ⟨fun hw => ⟨_, ?_, rfl, rfl⟩, fun hw => ?_⟩, fun s p hb => by simp [State.accepts, hb]⟩
  · rw [exec_send, if_pos hw]
  · rw [exec_send, if_neg hw, State.raiseHalt_eq_haltedWith]

/-- Settles O27: the halt makes the phase IDLE, which it was on a block that is not busy. -/
theorem sendBadWidthKeepsSequencer : Obligations.SendBadWidthKeepsSequencer := by
  intro f w s hw hb
  have hidle : s.sqPhase = .idle := by simpa [hb] using s.busy_iff
  refine ⟨haltedWith .badWidth s, ?_, rfl, rfl, ?_⟩
  · rw [exec_send, if_neg hw, State.raiseHalt_eq_haltedWith]
  · simp only [State.pc, haltedWith, hidle]

/-! ### One sequencer step -/

/-- An undisturbed step is the write of the phase and one transition, on the state once the sample is read. -/
theorem State.Legal.step_undisturbed {s : State} (hs : s.Legal) (hh : s.halted = false)
    (hp : undisturbed s.sample = true) {q : Pin} {v : Level}
    (hw : phaseWrite (s.sqFrame.getLsbD s.sqIdx.toNat) s.sqPhase = some (q, v)) :
    step s = .next (s.consume.pinWrite q v).advancePc :=
  State.react_of_phaseWrite hp (by simpa using hh) hs.consume.idx_range (by simpa using hw)

/-- Settles O28, phase by phase. -/
theorem sequencerTransitions : Obligations.SequencerTransitions := by
  intro s hs hh hp
  have hstep {q : Pin} {v : Level} := hs.step_undisturbed hh hp (q := q) (v := v)
  have hlow (hph : s.sqPhase = .clkHigh) : s.consume.lvSclk = false := by simpa using hs.data_sclk (.inr hph)
  refine ⟨fun hph => ⟨hs.latch_low_idx hph, ?_⟩, fun hph => ?_, fun hph => ?_, fun hph hi => ?_, fun hph hi => ?_,
    fun hph => ?_⟩
  · rw [hstep (by rw [hph]; rfl), State.advancePc_latchLow (by simpa using hph), State.pinWrite_lclk_low]
    simp
  · rw [hstep (by rw [hph]; rfl), State.advancePc_clkLow (by simpa using hph), State.pinWrite_sclk_low]
    simp
  · rw [hstep (by rw [hph]; rfl), State.advancePc_data (by simpa using hph), State.pinWrite_data_eq]
    simp
  · rw [hstep (by rw [hph]; rfl), State.advancePc_clkHigh_next (by simpa using hph) (by simpa using hi),
      State.pinWrite_sclk_rise (hlow hph)]
    simp [hs.edge_data hph]
  · rw [hstep (by rw [hph]; rfl), State.advancePc_clkHigh_last (by simpa using hph) (by simpa using hi),
      State.pinWrite_sclk_rise (hlow hph)]
    simp [hs.edge_data hph]
  · obtain ⟨hidx, -, hlclk⟩ := hs.latch_high_idx hph
    refine ⟨hidx, ?_⟩
    rw [hstep (by rw [hph]; rfl), State.advancePc_latchHigh (by simpa using hph),
      State.pinWrite_lclk_rise (by simpa using hlclk)]
    simp

theorem State.busy_of_phaseWrite {s : State} {bit : Level} {w : Pin × Level} (hw : phaseWrite bit s.sqPhase = some w) :
    s.busy = true := by
  rw [State.busy_iff]
  intro hidle
  simp [phaseWrite, hidle] at hw

/-- The sequencer attempts the write that its phase names, accepted or not (43_shift_bus R149). -/
theorem State.sequencerStep_of_phaseWrite {s : State} (ok : Bool) (hb : s.busy = true) (hidx : s.sqIdx.toNat ≤ 47)
    {q : Pin} {v : Level} (hw : phaseWrite (s.sqFrame.getLsbD s.sqIdx.toNat) s.sqPhase = some (q, v)) :
    s.sequencerStep ok = .next (s.attempt ok q v) := by
  obtain ⟨t, ht⟩ := State.sequencerStep_of_range (ok := ok) hidx
  obtain ⟨q', v', hnamed, rfl⟩ := State.sequencerStep_next hb ht
  have hw' : phaseWrite (s.sqFrame.getLsbD s.sqIdx.toNat) s.sqPhase = some (q', v') := by
    rcases hnamed with ⟨hph, rfl, rfl⟩ | ⟨hph, rfl, rfl⟩ | ⟨hph, rfl, hbit⟩ | ⟨hph, rfl, rfl⟩ | ⟨hph, rfl, rfl⟩
    case inr.inr.inl => rw [hph, (frameBit_eq_some hbit).2]; rfl
    all_goals rw [hph]; rfl
  obtain ⟨rfl, rfl⟩ : q' = q ∧ v' = v := by simpa [hw'] using hw
  exact ht

/-- Settles O29: the rejected write is the whole step. -/
theorem rejectedWriteHalts : Obligations.RejectedWriteHalts := by
  intro s q v hr hh hab hok hidx hw
  have hbusy := State.busy_of_phaseWrite hw
  have hreact : step s = s.consume.sequencerStep false := by simp [step, State.react, hr, hh, hab, hbusy, hok]
  have hseq : s.consume.sequencerStep false = .next (s.consume.rejectWrite q v) :=
    State.sequencerStep_of_phaseWrite false (by simpa using hbusy) (by simpa using hidx) (by simpa using hw)
  exact ⟨_, hreact.trans hseq, by simp⟩

/-! ### What the send sequence carries -/

/-- Settles O33: one write before the bit slots and one after them. -/
theorem sendSequenceLength : Obligations.SendSequenceLength := by
  intro f w
  simp only [sendSeq_eq, List.length_cons, List.length_append, length_bitSlots, List.length_nil]

theorem dataLevels_bitSlots_succ (f : Frame) (n : Nat) :
    dataLevels (bitSlots f (n + 1)) = f.getLsbD n :: dataLevels (bitSlots f n) := rfl

theorem dataLevels_bitSlots (f : Frame) (n : Nat) :
    dataLevels (bitSlots f n) = (List.range n).map fun k => f.getLsbD (n - 1 - k) := by
  induction n with
  | zero => rfl
  | succ n ih =>
    have hbit (k : Nat) : n - 1 - k = n - (k + 1) := by omega
    simp [dataLevels_bitSlots_succ, ih, List.range_succ_eq_map, hbit]

theorem clockLevels_bitSlots_succ (f : Frame) (n : Nat) :
    clockLevels (bitSlots f (n + 1)) = [false, true] ++ clockLevels (bitSlots f n) := rfl

theorem clockLevels_bitSlots (f : Frame) (n : Nat) :
    clockLevels (bitSlots f n) = (List.replicate n [false, true]).flatten := by
  induction n with
  | zero => rfl
  | succ n ih => rw [clockLevels_bitSlots_succ, ih, List.replicate_succ, List.flatten_cons]

theorem latchLevels_bitSlots_succ (f : Frame) (n : Nat) :
    latchLevels (bitSlots f (n + 1)) = latchLevels (bitSlots f n) := rfl

theorem latchLevels_bitSlots (f : Frame) (n : Nat) : latchLevels (bitSlots f n) = [] := by
  induction n with
  | zero => rfl
  | succ n ih => rw [latchLevels_bitSlots_succ, ih]

/-- Around the bit slots a send writes LCLK alone. -/
theorem levels_sendSeq (f : Frame) (w : Nat) :
    dataLevels (sendSeq f w) = dataLevels (bitSlots f w) ∧ clockLevels (sendSeq f w) = clockLevels (bitSlots f w) ∧
      latchLevels (sendSeq f w) = false :: (latchLevels (bitSlots f w) ++ [true]) := by
  simp [sendSeq_eq, dataLevels, clockLevels, latchLevels]

/-- Settles O34, pin by pin. -/
theorem sendSequenceCarriesBits : Obligations.SendSequenceCarriesBits := by
  intro f w
  obtain ⟨hdata, hclock, hlatch⟩ := levels_sendSeq f w
  refine ⟨hdata.trans (dataLevels_bitSlots f w), hclock.trans (clockLevels_bitSlots f w), ?_, rfl, ?_⟩
  · rw [hlatch, latchLevels_bitSlots]; rfl
  · rw [sendSeq, List.getLast?_concat]

/-! ### A complete SEND -/

/-- The last bit slot leaves bit 0 on DATA and SCLK high (43_shift_bus R153). -/
theorem State.replay_bitSlots_levels (f : Frame) (n : Nat) (s : State) :
    (s.replay (bitSlots f (n + 1))).lvData = f.getLsbD 0 ∧ (s.replay (bitSlots f (n + 1))).lvSclk = true := by
  induction n generalizing s with
  | zero => exact ⟨rfl, rfl⟩
  | succ n ih => rw [bitSlots_succ]; exact ih _

theorem State.replay_sendSeq_levels (f : Frame) (s : State) :
    (s.replay (sendSeq f 48)).lvData = f.getLsbD 0 ∧ (s.replay (sendSeq f 48)).lvSclk = true ∧
      (s.replay (sendSeq f 48)).lvLclk = true := by
  obtain ⟨hdata, hsclk⟩ := State.replay_bitSlots_levels f 47 (s.pinWrite .lclk false)
  rw [sendSeq_eq, State.replay_written, State.replay_append]
  exact ⟨hdata, hsclk, rfl⟩

/-- The state that the last write of a SEND of `f` ends in (43_shift_bus R150). -/
theorem State.sending_complete (s : State) (f : Frame) (ps : List Inputs) :
    s.sending f 146 ps =
      { s with
        sqFrame := f, sqPhase := .idle, sqIdx := 0
        lvData := f.getLsbD 0, lvSclk := true, lvLclk := true
        chSr := f, chOut := f, events := s.events ++ sendSeq f 48, inputs := ps } := by
  obtain ⟨hdata, hsclk, hlclk⟩ := State.replay_sendSeq_levels f s
  have hpc : pcBefore 146 = (.idle, 0) := rfl
  rw [State.sending, take_sendSeq_all, hpc]
  apply State.ext_fields <;> simp [hdata, hsclk, hlclk, State.replay_sendSeq_chSr, State.replay_sendSeq_chOut]

/-- Settles O30: the run of an accepted SEND, at its last write. -/
theorem completeSendShowsFrame : Obligations.CompleteSendShowsFrame := by
  intro s f p ps rest ha hd hlen hps hin
  have hrun := runSteps_send ha hd hlen.le hps hin
  rw [hlen] at hrun
  exact hrun.trans (congrArg _ (s.sending_complete f rest))

end Sys2Proof.Machine
end

section
/-! PROOFS. SHUTDOWN, and the order in which the host presents its commands (44_system R180, R184). -/

namespace Sys2Proof.Machine

open Sys2Proof

/-! ### SHUTDOWN -/

/-- The meaning of a SHUTDOWN (44_system R180). -/
theorem exec_shutdown (s : State) : exec .shutdown s = .next (s.raiseHalt .shutdown) := rfl

/-- Settles O39: SHUTDOWN is the halt entry and no more. -/
theorem shutdownHalts : Obligations.ShutdownHalts := by
  intro s
  rw [exec_shutdown, State.raiseHalt_eq_haltedWith]

/-! ### What the host presents -/

theorem HostRun.sample_of_onPorts {ch : HostChoice} {h : HostRun} {c : Option CommandPorts} (hc : h.onPorts ch = .ok c) :
    h.sample ch = .ok (ch.sample c) := by
  rw [HostRun.sample, hc]
  rfl

/-- From reset the host may not wait: its first command stands on the ports whatever is chosen. -/
theorem onPorts_startHost_cons {x : Presentation} {c : CommandPorts} (xs : List Presentation) (ch : HostChoice)
    (hx : portsOf State.reset.frame x = .ok c) : (startHost (x :: xs)).onPorts ch = .ok (some c) := by
  simp [startHost, HostRun.onPorts, hx, Except.map]

theorem HostRun.holdsFirst_of_held_none {h : HostRun} (hnone : h.held = none) : h.HoldsFirst := by
  intro c hc
  rw [hnone] at hc
  cases hc

/-- Where the held command is the first pending one, so is any command on the ports: it is the held one, or the first
pending one with FRAME as it stands. -/
theorem HostRun.HoldsFirst.onPorts_first {ch : HostChoice} {h : HostRun} {c : CommandPorts} (hfirst : h.HoldsFirst)
    (hc : h.onPorts ch = .ok (some c)) : ∃ x xs out, h.pending = x :: xs ∧ portsOf out x = .ok c := by
  rcases HostRun.onPorts_some hc with hheld | ⟨-, x, xs, hpending, hports⟩
  · exact hfirst c hheld
  · exact ⟨x, xs, h.state.frame, hpending, hports⟩

/-- An accepted command leaves none held; one that is not accepted was on the ports and stays the first pending one. -/
theorem HostRun.HoldsFirst.step {ch : HostChoice} {h h' : HostRun} (hfirst : h.HoldsFirst) (hs : h.step ch = .next h') :
    h'.HoldsFirst := by
  obtain ⟨c, hc, -, -, ⟨-, -, hnone⟩ | ⟨-, hpending, hheld⟩⟩ := HostRun.step_next hs
  · exact HostRun.holdsFirst_of_held_none hnone
  · intro d hd
    rw [hpending]
    exact hfirst.onPorts_first (hc.trans (congrArg _ (hheld.symm.trans hd)))

/-- Settles O52: each clause is what stands on the ports, or what a step makes of it. -/
theorem hostPresentsInOrderFromReset : Obligations.HostPresentsInOrderFromReset := by
  refine ⟨fun x xs ch c hx => ?first, fun h ch p hp hvalid => ?fromList,
    fun ps => HostRun.holdsFirst_of_held_none rfl, fun h h' ch hfirst hs => hfirst.step hs, fun h h' ch hs => ?taken⟩
  case first =>
    exact ⟨_, HostRun.sample_of_onPorts (onPorts_startHost_cons xs ch hx), HostChoice.sample_cmdValid ch _,
      HostChoice.sample_cmd ch c⟩
  case fromList =>
    obtain ⟨c, hc, rfl⟩ := HostRun.sample_eq_ok hp
    obtain ⟨c, rfl⟩ : ∃ c', c = some c' := Option.isSome_iff_exists.1 (by simpa using hvalid)
    exact HostRun.onPorts_some hc
  case taken =>
    obtain ⟨c, hc, -, -, hcases⟩ := HostRun.step_next hs
    refine ⟨_, HostRun.sample_of_onPorts hc, hcases.imp_right ?_⟩
    rintro ⟨hacc, hpending, -⟩
    exact ⟨hacc, hpending⟩

end Sys2Proof.Machine
end

section
/-! PROOFS. What a step without a pin write does, and when the chain moves (60_exceptions R212, R221, R223, R229, R233 to
R236, 70_reset_and_hazards R265). -/

namespace Sys2Proof.Machine

open Sys2Proof

/-! ### The branches of a step that write no pin of a SEND (60_exceptions R223) -/

/-- Nothing but reset reaches a halted block (60_exceptions R212). -/
theorem State.react_of_halted {p : Inputs} {s : State} (hr : p.rst = false) (hh : s.halted = true) :
    s.react p = .next s := by
  simp [State.react, hr, hh]

/-- Abort comes before the sequencer and before any command (60_exceptions R221). -/
theorem State.react_of_abort {p : Inputs} {s : State} (hr : p.rst = false) (hh : s.halted = false)
    (hab : p.abortReq = true) : s.react p = .next (s.raiseHalt .abort) := by
  simp [State.react, hr, hh, hab]

theorem State.ready_iff (s : State) : s.ready = true ↔ s.busy = false ∧ s.halted = false := by
  simp [State.ready]

/-- The last case of 60_exceptions R223. -/
theorem State.react_of_ready_without_command {p : Inputs} {s : State} (hready : s.ready = true) (hr : p.rst = false)
    (hab : p.abortReq = false) (hv : p.cmdValid = false) : s.react p = .next s := by
  obtain ⟨hb, hh⟩ := s.ready_iff.1 hready
  simp [State.react, hr, hh, hab, hb, hv]

@[simp] theorem State.consume_ready (s : State) : s.consume.ready = s.ready := by simp [State.ready]

/-- Settles O12: reading the sample does not clear HALTED, so the reaction is that of a halted block. -/
theorem haltedStepChangesNothing : Obligations.HaltedStepChangesNothing := by
  intro s hh hr
  exact State.react_of_halted hr (by rw [State.consume_halted, hh])

/-- Settles O13: the abort branch does not read BUSY, and the halt entry is `haltedWith`. -/
theorem abortHaltsAtOnce : Obligations.AbortHaltsAtOnce := by
  intro s hr hh hab
  rw [← State.raiseHalt_eq_haltedWith]
  exact State.react_of_abort hr (by rw [State.consume_halted, hh]) hab

/-- Settles O14: no branch before the last one applies. -/
theorem idleStepChangesNothing : Obligations.IdleStepChangesNothing := by
  intro s hready hr hab hv
  exact State.react_of_ready_without_command (by rw [State.consume_ready, hready]) hr hab hv

/-! ### The edges that move the chain -/

/-- Settles O36: the two rising writes as whole next states, and the storage after a shift read bit by bit. -/
theorem risingEdgesMoveChain : Obligations.RisingEdgesMoveChain := by
  refine ⟨fun s hlow => ⟨_, State.pinWrite_sclk_rise hlow, rfl, rfl, ?_, fun k hk => ?_⟩,
    fun s hlow => ⟨_, State.pinWrite_lclk_rise hlow, rfl, rfl⟩⟩
  · exact shiftIn_getLsbD s.chSr s.lvData 0
  · exact (shiftIn_getLsbD s.chSr s.lvData (k + 1)).trans (by simp [show k + 1 < 48 by omega])

/-- Settles O35: the shifts one at a time, and 48 of them push out all of the old contents. -/
theorem chainHoldsShiftedBits : Obligations.ChainHoldsShiftedBits := by
  refine ⟨fun sr f m hm => foldl_shiftIn_eq_partialShift sr f hm, fun sr f => ?_⟩
  rw [foldl_shiftIn_eq_partialShift sr f le_rfl, partialShift_full]

/-- What 60_exceptions R236 allows from `s` to `t`: the storage stays or shifts at a rising SCLK, the outputs stay or latch
at a rising LCLK, each in the phase whose write raises that pin. -/
def ChainMovedOnEdges (s t : State) : Prop :=
  (t.chSr = s.chSr ∨ (s.sqPhase = .clkHigh ∧ s.lvSclk = false ∧ t.lvSclk = true ∧ t.chSr = shiftIn s.chSr s.lvData)) ∧
  (t.chOut = s.chOut ∨ (s.sqPhase = .latchHigh ∧ s.lvLclk = false ∧ t.lvLclk = true ∧ t.chOut = s.chSr))

theorem ChainMovedOnEdges.of_kept {s t : State} (hsr : t.chSr = s.chSr) (hout : t.chOut = s.chOut) :
    ChainMovedOnEdges s t :=
  ⟨.inl hsr, .inl hout⟩

/-- The write of CLK_HIGH shifts the chain where SCLK was low, and moves nothing where it was high already. -/
theorem chainMovedOnEdges_of_clkHigh {s : State} (hph : s.sqPhase = .clkHigh) :
    ChainMovedOnEdges s (s.pinWrite .sclk true).advancePc := by
  cases hsclk : s.lvSclk with
  | false => exact ⟨.inr ⟨hph, hsclk, by simp, by simp [hsclk]⟩, .inl (by simp)⟩
  | true => exact .of_kept (by simp [hsclk]) (by simp)

/-- The write of LATCH_HIGH latches the chain where LCLK was low, and moves nothing where it was high already. -/
theorem chainMovedOnEdges_of_latchHigh {s : State} (hph : s.sqPhase = .latchHigh) :
    ChainMovedOnEdges s (s.pinWrite .lclk true).advancePc := by
  cases hlclk : s.lvLclk with
  | false => exact ⟨.inl (by simp), .inr ⟨hph, hlclk, by simp, by simp [hlclk]⟩⟩
  | true => exact .of_kept (by simp) (by simp [hlclk])

/-- No command touches the chain. -/
theorem exec_chain {i : Instr} {s t : State} (h : exec i s = .next t) : t.chSr = s.chSr ∧ t.chOut = s.chOut := by
  rcases exec_cases h with ⟨c, -, rfl⟩ | ⟨text, -, rfl⟩ | ⟨f, -, rfl⟩ | ⟨cause, -, rfl⟩ <;> simp

/-- Of the ways of a step, only the sequencer's write reaches the chain: rejected it loses it, accepted it moves it at a
rising edge. -/
theorem Took.chain {p : Inputs} {s t : State} (h : Took p s t) :
    (s.busy = true ∧ p.pinOk = false ∧ t.haltCause = .pinWriteFailed) ∨ ChainMovedOnEdges s t := by
  cases h with
  | write _ _ _ hb q v hw ht =>
    cases hok : p.pinOk with
    | false => exact .inl ⟨hb, rfl, by simp [ht, hok]⟩
    | true =>
      right
      rw [ht, hok, State.attempt_true]
      rcases hw with ⟨-, rfl, rfl⟩ | ⟨-, rfl, rfl⟩ | ⟨-, rfl, -⟩ | ⟨hph, rfl, rfl⟩ | ⟨hph, rfl, rfl⟩
      case inr.inr.inr.inl => exact chainMovedOnEdges_of_clkHigh hph
      case inr.inr.inr.inr => exact chainMovedOnEdges_of_latchHigh hph
      all_goals exact .of_kept (by simp) (by simp)
  | command _ i _ hexec =>
    obtain ⟨hsr, hout⟩ := exec_chain hexec
    exact .inr (.of_kept hsr hout)
  | reset _ ht | stayHalted _ _ ht | abort _ _ _ ht | illegal _ _ _ ht | nothing _ _ _ _ _ ht =>
    exact .inr (.of_kept (by simp [ht]) (by simp [ht]))

/-- Settles O37: reading the sample leaves the chain, the phase and the levels as they are. -/
theorem chainChangesOnlyOnRisingEdges : Obligations.ChainChangesOnlyOnRisingEdges := by
  intro s t hstep
  simpa [ChainMovedOnEdges] using (step_took hstep).chain

end Sys2Proof.Machine
end

section
/-! PROOFS. Reset, the only way out of a halt, and that no step refuses (70_reset_and_hazards R250, R251, 60_exceptions
R212). -/

namespace Sys2Proof.Machine

open Sys2Proof

/-! ### Reset -/

/-- Reset comes before every other event (60_exceptions R223). -/
theorem State.react_of_reset {p : Inputs} (s : State) (hr : p.rst = true) : s.react p = .next s.resetBlock :=
  if_pos hr

@[simp] theorem State.resetBlock_busy (s : State) : s.resetBlock.busy = false := by simp [State.busy]
@[simp] theorem State.resetBlock_ready (s : State) : s.resetBlock.ready = true := by simp [State.ready]

/-- Settles O11: a step with `rst` is `resetBlock`, and a halted block that reads no `rst` stays halted. -/
theorem resetSetsEveryRegister : Obligations.ResetSetsEveryRegister := by
  refine ⟨fun s hr => ⟨s.consume.resetBlock, s.consume.react_of_reset hr, by simp, by simp, ?registers⟩,
    fun s t hstep hh hleft => ?wayOut⟩
  case registers =>
    rw [State.resetBlock_eq, State.consume_events]
    rfl
  case wayOut =>
    by_contra hr
    have hstay : step s = .next s.consume := haltedStepChangesNothing s hh (by simpa using hr)
    have ht : t = s.consume := Host.Outcome.next.inj (hstep.symm.trans hstay)
    simp [ht, hh] at hleft

/-- Settles O42: the reset state has the registers of a block after reset, and the invariant reads nothing else of it. -/
theorem resetStateIsLegal : Obligations.ResetStateIsLegal := by
  have hlegal := State.reset.resetBlock_legal
  rw [State.resetBlock_eq] at hlegal
  exact { hlegal with }

/-! ### How a step can end -/

/-- The sequencer stops only where SQ_IDX names no bit, and then with its own fault (log 7). -/
theorem State.sequencerStep_next_or_fault (ok : Bool) (s : State) :
    (∃ t, s.sequencerStep ok = .next t) ∨ s.sequencerStep ok = .fault .sqIdxOutOfRange := by
  unfold State.sequencerStep
  cases s.sqPhase with
  | data =>
    cases frameBit s.sqFrame s.sqIdx with
    | some b => exact .inl ⟨_, rfl⟩
    | none => exact .inr rfl
  | idle | latchLow | clkLow | clkHigh | latchHigh => exact .inl ⟨_, rfl⟩

/-- Of the ways of 60_exceptions R223 the sequencer's alone may end in something other than a next state. -/
theorem State.react_next_or_sequencerStep (p : Inputs) (s : State) :
    (∃ t, s.react p = .next t) ∨ s.react p = s.sequencerStep p.pinOk := by
  unfold State.react
  split_ifs
  · exact .inl ⟨_, rfl⟩
  · exact .inl ⟨_, rfl⟩
  · exact .inl ⟨_, rfl⟩
  · exact .inr rfl
  · exact .inl (s.accept_next p.cmd)
  · exact .inl ⟨_, rfl⟩

theorem step_next_or_fault (s : State) : (∃ t, step s = .next t) ∨ step s = .fault .sqIdxOutOfRange := by
  rcases s.consume.react_next_or_sequencerStep s.sample with hnext | hseq
  · exact .inl hnext
  · rw [step, hseq]
    exact s.consume.sequencerStep_next_or_fault s.sample.pinOk

/-- Settles O45: a step ends in a next state or in the sequencer's fault. -/
theorem stepNeverRefuses : Obligations.StepNeverRefuses := by
  intro s r hrefused
  rcases step_next_or_fault s with ⟨t, ht⟩ | hfault
  · simp [ht] at hrefused
  · simp [hfault] at hrefused

end Sys2Proof.Machine
end
